-- ==== Sys2Proof/Word.lean ====
section
/-! DEFINITION. Bytes, buffers and words of the core (00_scope.md §5.1, 20_memory.md R60). -/

namespace Sys2Proof

/-- A byte is 8 bits (00_scope.md §5.1). -/
abbrev Byte := BitVec 8

/-- A 32-bit word: a register field of the translator (R104), the tick (R39). -/
abbrev Word32 := BitVec 32

/-- A buffer `B` of length `n`: the bytes `B[0]` to `B[n-1]`, `B[0]` first on the wire
(00_scope.md §5.1). Its length is part of its type, so no index leaves it (R60). -/
abbrev Buf (n : Nat) := Vector Byte n

/-- A USB packet as delivered: any number of bytes, byte 0 first (R39). -/
abbrev Packet := List Byte

end Sys2Proof
end

