-- ==== Sys2Proof/Machine/Buffer.lean ====
section
/-! DEFINITION. Access to the fixed byte buffers: the only indexable storage the core has
(20_memory.md R60), with the big-endian primitives of R77. -/

namespace Sys2Proof

/-- `B[i]`: byte `i` of a buffer. Every index the rules use is inside the buffer (R60); elsewhere
the value is 0 and no rule reads it. -/
def byteAt {n : Nat} (B : Buf n) (i : Nat) : Byte :=
  B[i]?.getD 0#8

/-- `MemRead(B, off, n)`: `n` bytes from `off`, first byte most significant (R77, R63). -/
def memRead {m : Nat} (B : Buf m) (off : Nat) : Nat → Nat
  | 0 => 0
  | n + 1 => memRead B off n * 256 + (byteAt B (off + n)).toNat

/-- `MemWrite(B, off, n, v)`: `B[off+k] <- floor(v / 256^(n-1-k)) mod 256` (R77, R63). -/
def memWrite {m : Nat} (B : Buf m) (off : Nat) : Nat → Nat → Buf m
  | 0, _ => B
  | n + 1, v => (memWrite B off n (v / 256)).setIfInBounds (off + n) (BitVec.ofNat 8 v)

/-- `B[off..off+n-1]` as a buffer of its own. -/
def slice {m : Nat} (B : Buf m) (off n : Nat) : Buf n :=
  Vector.ofFn fun i : Fin n => byteAt B (off + i.val)

/-- `B[off..off+n-1] <- d`, the other bytes kept. -/
def writeSlice {m n : Nat} (B : Buf m) (off : Nat) (d : Buf n) : Buf m :=
  Vector.ofFn fun i : Fin m =>
    if off ≤ i.val ∧ i.val < off + n then byteAt d (i.val - off) else byteAt B i.val

/-- A packet as a buffer of length `n`, if it has that length (R115: any other is a framing
error). -/
def toBuf (n : Nat) (pkt : Packet) : Option (Buf n) :=
  if h : pkt.length = n then some ⟨pkt.toArray, by simpa using h⟩ else none

/-- Every byte 0. -/
def zeros (n : Nat) : Buf n :=
  Vector.replicate n 0#8

/-- The payload copy of R222 and R228: bytes below `n` are kept, the rest are 0 (R227). -/
def trim (n : Nat) (d : Buf 8) : Buf 8 :=
  Vector.ofFn fun i : Fin 8 => if i.val < n then d[i.val] else 0#8

end Sys2Proof
end

