-- ==== Sys2Proof/Config.lean ====
section
/-! DEFINITION. The numbers fixed when the core is built (00_scope.md R6): the constants the source
states, the parameters with their defaults, and the value the spec leaves unspecified (UNSPEC). -/

namespace Sys2Proof

namespace Config

/-- `CMD_LEN`, the length of a command message (R6). -/
abbrev cmdLen : Nat := 16

/-- `DIN_LEN`, the length of an inbound data message (R6, conflict C2). -/
abbrev dinLen : Nat := 16

/-- `DOUT_LEN`, the length of an outbound data message (R6, conflict C1). -/
abbrev doutLen : Nat := 21

/-- `SCALE_NUM` over `SCALE_DEN`: the prescaler scale 1.5 (R6). -/
abbrev scaleNum : Nat := 3

/-- See `scaleNum` (R6). -/
abbrev scaleDen : Nat := 2

/-- `FW_VERSION`, the firmware version word (R6). -/
def fwVersion : BitVec 16 := 0x0010#16

/-- `HW_VERSION`, the hardware version word (R6). -/
def hwVersion : BitVec 16 := 0x0010#16

/-- `RESP_OK`, the success status byte (R6). -/
def respOk : Byte := 0x00#8

/-- `RESP_FAIL`, the "command failed" status byte, 255 (R6). -/
def respFail : Byte := 0xFF#8

/-- `TYPE_CAN`, the frame-type byte of a CAN frame (R6, R100). -/
def typeCan : Byte := 0#8

/-- `TYPE_ERR`, the frame-type byte of an error frame (R6, R100). -/
def typeErr : Byte := 3#8

/-- `ST_OK`, the collaborator's success status (R6, R106). -/
def stOk : Byte := 0#8

/-- `UNSPEC(16)`: the bytes a receive buffer holds after a rejected packet (R192, R223, U7). The
argument numbers the draws (`State.draws`). It has no body: no proof can know a value of it
(log 7). -/
opaque unspec16 : Nat → Buf 16

end Config

/-- The rows of R6 marked `parameter`: fixed when the core is built, never changed afterwards. The
machine carries them in `State.params` (log 5). Flag positions are below `FLAG_W` by type. -/
structure Params where
  /-- `FLAG_W`, the width of `FLAGS` in bits, at least 6 (R20) -/
  flagW : Nat
  /-- bit index of VERSION in `FLAGS` (R21) -/
  fVersion : Fin flagW
  /-- bit index of OPEN -/
  fOpen : Fin flagW
  /-- bit index of CLOSE -/
  fClose : Fin flagW
  /-- bit index of TRANSMIT -/
  fTransmit : Fin flagW
  /-- bit index of ERROR -/
  fError : Fin flagW
  /-- bit index of RXRDY -/
  fRxrdy : Fin flagW
  /-- `USB_MAXPKT`, the largest OUT packet in bytes -/
  usbMaxpkt : Nat
  /-- `CMD_SOF` -/
  cmdSof : Byte
  /-- `CMD_EOF` -/
  cmdEof : Byte
  /-- `DATA_SOF` -/
  dataSof : Byte
  /-- `DATA_EOF` -/
  dataEof : Byte
  /-- `FB_EXT`, the extended-ID mask of the flag byte -/
  fbExt : Byte
  /-- `FB_RTR`, the remote-request mask of the flag byte -/
  fbRtr : Byte
  /-- `FB_ERR`, the error mask of the flag byte -/
  fbErr : Byte
  /-- `CM_SILENT`, a mask of the control-mode byte -/
  cmSilent : Byte
  /-- `CM_LOOPBACK` -/
  cmLoopback : Byte
  /-- `CM_ONESHOT` -/
  cmOneshot : Byte
  /-- `SJW_SHIFT` (R104, R177) -/
  sjwShift : Nat
  /-- `TS1_SHIFT` -/
  ts1Shift : Nat
  /-- `TS2_SHIFT` -/
  ts2Shift : Nat
  /-- `BRP_W`, informative only (R178): no rule of the core reads it -/
  brpW : Nat
  /-- `ST_INIT`, the status of an open that failed at init (R106) -/
  stInit : Byte
  /-- `ST_FILTER` -/
  stFilter : Byte
  /-- `ST_ARM` -/
  stArm : Byte
  deriving DecidableEq, Repr

namespace Params

/-- The defaults of R6. PRESUMED by the spec itself from general knowledge (K1 to K5): markers,
flag-byte and control-mode masks, shifts, `BRP_W`, `USB_MAXPKT` (log 5). -/
def default : Params where
  flagW := 32
  fVersion := 0
  fOpen := 1
  fClose := 2
  fTransmit := 3
  fError := 4
  fRxrdy := 5
  usbMaxpkt := 64
  cmdSof := 0x11#8
  cmdEof := 0x22#8
  dataSof := 0x55#8
  dataEof := 0xAA#8
  fbExt := 0x01#8
  fbRtr := 0x02#8
  fbErr := 0x04#8
  cmSilent := 0x01#8
  cmLoopback := 0x02#8
  cmOneshot := 0x04#8
  sjwShift := 24
  ts1Shift := 16
  ts2Shift := 20
  brpW := 10
  stInit := 1#8
  stFilter := 2#8
  stArm := 3#8

end Params

/-- A word of `FLAG_W` bits: `FLAGS` and the snapshot `DSNAP` (R20, R23; log 6). -/
abbrev FlagWord (c : Params) := BitVec c.flagW

end Sys2Proof
end

