-- ==== Sys2Proof/Syntax.lean ====
section
/-! DEFINITION. The operation set of the core: one constructor of `Instr` per row of
spec/opcode_table.json, the records its operands are made of, and the signals that stand at the
core's ports (10_state.md R43, 30_encoding.md R118). -/

namespace Sys2Proof

/-- The six request flags of R21, in `PRIO` order (R6). -/
inductive Flag where
  | version | open_ | close | transmit | error | rxrdy
  deriving DecidableEq, Repr

/-- `DPH`, the phase of a drain slot (R23). -/
inductive Phase where
  | sample | handle | clear
  deriving DecidableEq, Repr

/-- The CAN frame record of R30. -/
structure Frame where
  /-- the identifier; for a standard frame only bits 10 to 0 may be nonzero -/
  id : BitVec 29
  /-- true for an extended (29-bit) identifier -/
  ext : Bool
  /-- true for a remote-request frame -/
  rtr : Bool
  /-- number of valid payload bytes, 0 to 8 -/
  dlc : BitVec 4
  /-- the payload; bytes at index `dlc` and above are 0 -/
  data : Buf 8
  deriving DecidableEq, Repr

/-- `RXC`, the receive-class error of an error condition record (R232). -/
inductive RxClass where
  | none_ | overrun | stuff | form | ack | bitrec | bitdom | crc | unknown
  deriving DecidableEq, Repr

/-- The error condition record `E` of R232. -/
structure ErrRec where
  /-- bus-off is present -/
  bof : Bool
  /-- error-passive is present -/
  epv : Bool
  /-- error-warning is present -/
  ewg : Bool
  /-- the receive-class error, at most one at a time -/
  rxc : RxClass
  deriving DecidableEq, Repr

/-- The bytes of a `CMD16` message that its row does not fix: channel, opt1, opt2 and the ten
payload bytes `p[0]` to `p[9]` (R91). -/
structure CmdArgs where
  channel : Byte
  opt1 : Byte
  opt2 : Byte
  payload : Buf 10
  deriving DecidableEq, Repr

/-- The operands of `CAN_OPEN` (R251): the four register fields and the three mode bits. -/
structure OpenArgs where
  sjwF : Word32
  ts1F : Word32
  ts2F : Word32
  presc : Word32
  silent : Bool
  loopback : Bool
  oneshot : Bool
  deriving DecidableEq, Repr

/-- The operation set: one constructor per row of spec/opcode_table.json, in the table's order. -/
inductive Instr where
  /-- GET_SOFTW_HARDW_VER, code 12 (R195) -/
  | getSoftwHardwVer (a : CmdArgs)
  /-- OPEN, code 2 (R196) -/
  | cmdOpen (a : CmdArgs)
  /-- CLOSE, code 3 (R197) -/
  | cmdClose (a : CmdArgs)
  /-- RESET, code 1, unused (R198) -/
  | cmdReset (a : CmdArgs)
  /-- SET_SPEED, code 4, unused (R199) -/
  | setSpeed (a : CmdArgs)
  /-- SET_MASK_FILTER, code 5, unused (R200) -/
  | setMaskFilter (a : CmdArgs)
  /-- GET_STATUS, code 6, unused (R201) -/
  | getStatus (a : CmdArgs)
  /-- GET_STATISTICS, code 7, unused (R202) -/
  | getStatistics (a : CmdArgs)
  /-- GET_SERIAL, code 8, unused (R203) -/
  | getSerial (a : CmdArgs)
  /-- GET_SOFTW_VER, code 9, unused (R204) -/
  | getSoftwVer (a : CmdArgs)
  /-- GET_HARDW_VER, code 10, unused (R205) -/
  | getHardwVer (a : CmdArgs)
  /-- RESET_TIMESTAMP, code 11, unused (R206) -/
  | resetTimestamp (a : CmdArgs)
  /-- CMD_UNRECOGNIZED: any code no earlier row matches (R207, R118) -/
  | cmdUnrecognized (code : Byte) (a : CmdArgs)
  /-- CMD_RESPONSE: a response crossing usb_cmd_in (R96, R210) -/
  | cmdResponse (command : Byte) (a : CmdArgs)
  /-- DATA_IN: a well-framed inbound data message (R97, R220): flag byte, identifier word, dlc
  byte, eight data bytes -/
  | dataIn (fl : Byte) (idw : Word32) (dlc : Byte) (data : Buf 8)
  /-- DATA_OUT_CAN: an outbound CAN-frame message crossing usb_data_in (R98, R228) -/
  | dataOutCan (fl : Byte) (idw : Word32) (dlc : Byte) (data : Buf 8) (ts : Word32)
  /-- DATA_OUT_ERR: an outbound error-frame message crossing usb_data_in (R102, R230) -/
  | dataOutErr (code : Byte) (ts : Word32)
  /-- RAISE(f) (R140) -/
  | raise (f : Flag)
  /-- D_SAMPLE (R143) -/
  | dSample
  /-- D_HANDLE (R144) -/
  | dHandle
  /-- D_CLEAR (R145) -/
  | dClear
  /-- H_VERSION, handler of slot 0 (R212) -/
  | hVersion
  /-- H_OPEN, handler of slot 1 (R213) -/
  | hOpen
  /-- H_CLOSE, handler of slot 2 (R214) -/
  | hClose
  /-- H_TRANSMIT, handler of slot 3 (R225) -/
  | hTransmit
  /-- H_ERROR = EMIT_CAN_ERROR, handler of slot 4 (R230) -/
  | hError
  /-- H_RXRDY = EMIT_CAN_FRAME, handler of slot 5 (R228) -/
  | hRxrdy
  /-- BT_DECODE of an OPEN payload (R170) -/
  | btDecode (p : Buf 10)
  /-- BT_COMPUTE (R174) -/
  | btCompute
  /-- SEND_RESPONSE(ec) (R210) -/
  | sendResponse (ec : Byte)
  /-- ERR_MAP(E) (R233) -/
  | errMap (e : ErrRec)
  /-- USB_CMD_OUT(pkt) (R190) -/
  | usbCmdOut (pkt : Packet)
  /-- USB_DATA_OUT(pkt) (R220) -/
  | usbDataOut (pkt : Packet)
  /-- USB_INIT (R259) -/
  | usbInit
  /-- USB_DEINIT (R260) -/
  | usbDeinit
  /-- CAN_OPEN (R251) -/
  | canOpen (a : OpenArgs)
  /-- CAN_CLOSE (R252) -/
  | canClose
  /-- CAN_TX_START(frame) (R253) -/
  | canTxStart (f : Frame)
  /-- CAN_RX_DONE(frame) (R256) -/
  | canRxDone (f : Frame)
  /-- CAN_ERR(E) (R257) -/
  | canErr (e : ErrRec)
  /-- CAN_TX_DONE (R258) -/
  | canTxDone
  /-- PROC_EXCEPTION (R287) -/
  | procException
  /-- RESET_EVENT (R320) -/
  | resetEvent
  deriving DecidableEq, Repr

/-- An event the environment delivers at an in-port of R43, or a step of `MAIN` it lets happen: the
lines of the event script of R117 that name a step. No internal operation and no out-port is among
them, so no script can run one on its own (R297: "a model enforces them by construction"). -/
inductive Event where
  /-- port reset -/
  | reset
  /-- port usb_init -/
  | init
  /-- port usb_deinit -/
  | deinit
  /-- port usb_cmd_out: the packet's bytes -/
  | cmd (pkt : Packet)
  /-- port usb_data_out: the packet's bytes -/
  | data (pkt : Packet)
  /-- port can_rx_done: a frame record -/
  | canrx (f : Frame)
  /-- port can_err: BOF, EPV, EWG, RXC -/
  | canerr (e : ErrRec)
  /-- port can_tx_done -/
  | cantxdone
  /-- port proc_exception -/
  | fault
  /-- the next SAMPLE step of `MAIN` -/
  | sample
  /-- the next HANDLE step of `MAIN` -/
  | handle
  /-- the next CLEAR step of `MAIN` -/
  | clear
  deriving DecidableEq, Repr

/-- What selects a row of the table (R118): an event, a message at an out-port, the drain slot of a
handler, a call's port, or the name and operands of an internal operation. PORT rows have no bits,
so their signals are typed records (log 27). -/
inductive Signal where
  /-- an in-port event or a drain phase -/
  | event (e : Event)
  /-- out-port usb_cmd_in: the message's bytes -/
  | usbCmdIn (msg : Packet)
  /-- out-port usb_data_in: the message's bytes -/
  | usbDataIn (msg : Packet)
  /-- the handler of drain slot `k` -/
  | slot (k : Nat)
  /-- out-port can_open_req -/
  | canOpenReq (a : OpenArgs)
  /-- out-port can_close_req -/
  | canCloseReq
  /-- out-port can_tx_start -/
  | canTxStartReq (f : Frame)
  /-- the operation RAISE on bit index `ix` -/
  | raise (ix : Nat)
  /-- the operation BT_DECODE on a payload -/
  | btDecode (p : Buf 10)
  /-- the operation BT_COMPUTE -/
  | btCompute
  /-- the operation SEND_RESPONSE -/
  | sendResponse (ec : Byte)
  /-- the operation ERR_MAP -/
  | errMap (e : ErrRec)
  deriving DecidableEq, Repr

/-- One entry of the environment's script: the levels of `tick_ms` and `can_status` while the step
is taken (R39, R263) and the event. -/
structure Input where
  tickMs : Word32
  canStatus : Byte
  event : Event
  deriving DecidableEq, Repr

end Sys2Proof
end

