-- ==== Sys2Proof/Machine/Framing.lean ====
section
/-! DEFINITION. What the decoder and the meanings both ask of a message or a frame: the bit index of
a flag, the frame record's limits, the framing checks of the two OUT channels (30_encoding.md R108 to
R115). -/

namespace Sys2Proof

/-- The bit index of a flag under the parameters (R6, R21). -/
def Params.flagIx (c : Params) : Flag → Fin c.flagW
  | .version => c.fVersion
  | .open_ => c.fOpen
  | .close => c.fClose
  | .transmit => c.fTransmit
  | .error => c.fError
  | .rxrdy => c.fRxrdy

/-- A received frame the interface admits: `dlc` at most 8 and, for a standard frame, an identifier
below 2^11 (R256). -/
def Frame.inInterface (f : Frame) : Bool :=
  f.dlc.toNat ≤ 8 && (f.ext || f.id.toNat < 2048)

/-- A record of R30: inside the interface, and payload bytes at index `dlc` and above 0. -/
def Frame.valid (f : Frame) : Bool :=
  f.inInterface && (List.finRange 8).all (fun i => i.val < f.dlc.toNat || f.data[i.val] == 0#8)

/-- The command codes that have a `CMD16` row of their own: 1 to 12 (R92). -/
def hasOwnRow (code : Byte) : Bool :=
  1 ≤ code.toNat && code.toNat ≤ 12

/-- The markers of a command message (R91, R108). -/
def cmdMarked (c : Params) (b : Buf 16) : Bool :=
  b[0] == c.cmdSof && b[15] == c.cmdEof

/-- The markers of an inbound data message (R97, R108). -/
def dinMarked (c : Params) (b : Buf 16) : Bool :=
  b[0] == c.dataSof && b[15] == c.dataEof

/-- The three checks of `PARSE_COMMAND` (R191): length, start marker, end marker. The answer is the
message, or none for a framing error. -/
def cmdFrame? (c : Params) (pkt : Packet) : Option (Buf 16) :=
  (toBuf Config.cmdLen pkt).filter (cmdMarked c)

/-- The three checks of `PARSE_INCOMING_FRAME` (R221). -/
def dinFrame? (c : Params) (pkt : Packet) : Option (Buf 16) :=
  (toBuf Config.dinLen pkt).filter (dinMarked c)

end Sys2Proof
end

