-- ==== Sys2Proof/WellFormed.lean ====
section
/-! DEFINITION. Which parameters, frame records and instructions are inside the interface. -/

namespace Sys2Proof

/-- The six flags, in `PRIO` order (R6). -/
def Flag.all : List Flag := [.version, .open_, .close, .transmit, .error, .rxrdy]

/-- A byte with exactly one bit set (R6: the masks are one-bit masks). -/
def oneBit (m : Byte) : Bool :=
  m != 0#8 && (m &&& (m - 1#8)) == 0#8

/-- What R6 and R177 require of the parameters: a flag word of at least 6 bits, six distinct flag
indices, three distinct one-bit
masks in each of the two mask groups, fields not shifted out of their words, nonzero failure
statuses, and a packet size of at least 16. -/
def Params.wf (c : Params) : Bool :=
  (Flag.all.map c.flagIx).Nodup && 6 ≤ c.flagW
    && oneBit c.fbExt && oneBit c.fbRtr && oneBit c.fbErr
    && [c.fbExt, c.fbRtr, c.fbErr].Nodup
    && oneBit c.cmSilent && oneBit c.cmLoopback && oneBit c.cmOneshot
    && [c.cmSilent, c.cmLoopback, c.cmOneshot].Nodup
    && c.sjwShift + 2 ≤ 32 && c.ts1Shift + 4 ≤ 32 && c.ts2Shift + 3 ≤ 32
    && c.stInit != 0#8 && c.stFilter != 0#8 && c.stArm != 0#8
    && 16 ≤ c.usbMaxpkt

/-- The form in which the decoder answers an instruction. A packet that matches a row of the table
is that row's instruction, the first that matches (R118), so `usbCmdOut` and `usbDataOut` carry the
packets that match none, at most `USB_MAXPKT` bytes long (R39), and `cmdUnrecognized` a code
without a row; a CAN frame is a record the interface admits (R256, R253). -/
def Instr.wf (c : Params) : Instr → Bool
  | .getSoftwHardwVer _ | .cmdOpen _ | .cmdClose _ | .cmdReset _ | .setSpeed _
  | .setMaskFilter _ | .getStatus _ | .getStatistics _ | .getSerial _ | .getSoftwVer _
  | .getHardwVer _ | .resetTimestamp _ => true
  | .cmdUnrecognized code _ => !hasOwnRow code
  | .cmdResponse _ _ | .dataIn _ _ _ _ | .dataOutCan _ _ _ _ _ | .dataOutErr _ _ => true
  | .raise _ | .dSample | .dHandle | .dClear => true
  | .hVersion | .hOpen | .hClose | .hTransmit | .hError | .hRxrdy => true
  | .btDecode _ | .btCompute | .sendResponse _ | .errMap _ => true
  | .usbCmdOut pkt => pkt.length ≤ c.usbMaxpkt && (cmdFrame? c pkt).isNone
  | .usbDataOut pkt => pkt.length ≤ c.usbMaxpkt && (dinFrame? c pkt).isNone
  | .usbInit | .usbDeinit => true
  | .canOpen _ | .canClose => true
  | .canTxStart f => f.valid
  | .canRxDone f => f.inInterface
  | .canErr _ | .canTxDone | .procException | .resetEvent => true

end Sys2Proof
end

