-- ==== Sys2Proof/Decode.lean ====
section
/-! DEFINITION. Decoding of the signals at the core's ports into instructions, total and rejecting
by name, and the encoder (30_encoding.md R90 to R118, spec/opcode_table.json). -/

namespace Sys2Proof

/-- Why a signal is no instruction of the table. -/
inductive DecodeError where
  /-- a message at an out-port that matches no row of its format (R118, R113) -/
  | noRow
  /-- a packet longer than `USB_MAXPKT`: no OUT delivery carries it (R6, R39) -/
  | packetTooLong
  /-- a frame record outside the interface (R256, R30, U14) -/
  | frameOutsideInterface
  /-- an index outside the six flags: "not an operation of the core; a model refuses it" (R140) -/
  | noSuchFlag
  /-- a drain slot above 5 (R23) -/
  | noSuchSlot
  deriving DecidableEq, Repr

/-! ### The command message, `CMD16` (R91) -/

/-- The fields of a `CMD16` message that its row leaves free. -/
def cmdArgsOf (b : Buf 16) : CmdArgs where
  channel := b[1]
  opt1 := b[3]
  opt2 := b[4]
  payload := slice b 5 10

/-- A `CMD16` message with its markers: channel, code, opt1, opt2, payload at the offsets of R91. -/
def cmdMsg (c : Params) (code : Byte) (a : CmdArgs) : Buf 16 :=
  #v[c.cmdSof, a.channel, code, a.opt1, a.opt2,
    a.payload[0], a.payload[1], a.payload[2], a.payload[3], a.payload[4],
    a.payload[5], a.payload[6], a.payload[7], a.payload[8], a.payload[9], c.cmdEof]

/-- The request row of a command code (R92; the first row that matches, R118). -/
def cmdRow (code : Byte) (a : CmdArgs) : Instr :=
  if code = 12#8 then .getSoftwHardwVer a
  else if code = 2#8 then .cmdOpen a
  else if code = 3#8 then .cmdClose a
  else if code = 1#8 then .cmdReset a
  else if code = 4#8 then .setSpeed a
  else if code = 5#8 then .setMaskFilter a
  else if code = 6#8 then .getStatus a
  else if code = 7#8 then .getStatistics a
  else if code = 8#8 then .getSerial a
  else if code = 9#8 then .getSoftwVer a
  else if code = 10#8 then .getHardwVer a
  else if code = 11#8 then .resetTimestamp a
  else .cmdUnrecognized code a

/-- A packet on the command OUT channel: the request row of a framed message, else the bare
delivery, whose meaning is the framing error (R190, R191). -/
def decodeCmd (c : Params) (pkt : Packet) : Instr :=
  match cmdFrame? c pkt with
  | some b => cmdRow b[2] (cmdArgsOf b)
  | none => .usbCmdOut pkt

/-! ### The inbound data message, `DIN16` (R97) -/

/-- A `DIN16` message with its markers, the identifier big-endian at offset 2. -/
def dinMsg (c : Params) (fl : Byte) (idw : Word32) (dlc : Byte) (data : Buf 8) : Buf 16 :=
  let B := ((zeros 16).set 0 c.dataSof).set 1 fl
  let B := memWrite B 2 4 idw.toNat
  let B := B.set 6 dlc
  let B := writeSlice B 7 data
  B.set 15 c.dataEof

/-- The fields of a framed `DIN16` message. -/
def dinRow (b : Buf 16) : Instr :=
  .dataIn b[1] (BitVec.ofNat 32 (memRead b 2 4)) b[6] (slice b 7 8)

/-- A packet on the data OUT channel (R220, R221). -/
def decodeData (c : Params) (pkt : Packet) : Instr :=
  match dinFrame? c pkt with
  | some b => dinRow b
  | none => .usbDataOut pkt

/-! ### The outbound data message, `DOUT21` (R98) -/

/-- The writes of R228 and R230 into `DATA_TX`, in their order: every one of the 21 bytes of R98 is
written. -/
def doutWrite (B : Buf 21) (sof ty fl : Byte) (idw : Word32) (dlc : Byte) (data : Buf 8)
    (ts : Word32) (eof : Byte) : Buf 21 :=
  let B := ((B.set 0 sof).set 1 ty).set 2 fl
  let B := memWrite B 3 4 idw.toNat
  let B := B.set 7 dlc
  let B := writeSlice B 8 data
  let B := memWrite B 16 4 ts.toNat
  B.set 20 eof

/-- The payload of an error frame: the code, then seven zero bytes (R102). -/
def errData (code : Byte) : Buf 8 :=
  (zeros 8).set 0 code

/-- The timestamp of a `DOUT21` message (R98). -/
def doutTs (b : Buf 21) : Word32 :=
  BitVec.ofNat 32 (memRead b 16 4)

/-- The rows `DATA_OUT_CAN` and `DATA_OUT_ERR`: the latter fixes every byte but the code and the
timestamp (R102 and the row's mask). -/
def decodeDout (c : Params) (b : Buf 21) : Except DecodeError Instr :=
  if b[0] = c.dataSof ∧ b[20] = c.dataEof then
    if b[1] = Config.typeCan then
      .ok (.dataOutCan b[2] (BitVec.ofNat 32 (memRead b 3 4)) b[7] (slice b 8 8) (doutTs b))
    else if b[1] = Config.typeErr ∧ b[2] = c.fbErr ∧ memRead b 3 4 = 0 ∧ b[7] = 0#8
        ∧ slice b 8 8 = errData b[8] then
      .ok (.dataOutErr b[8] (doutTs b))
    else .error .noRow
  else .error .noRow

/-! ### The decoder -/

/-- The flag at a bit index (R21), if there is one. -/
def flagAt (c : Params) (ix : Nat) : Option Flag :=
  Flag.all.find? fun f => (c.flagIx f).val = ix

/-- The handler of a drain slot (R144). -/
def handlerRow : Nat → Option Instr
  | 0 => some .hVersion
  | 1 => some .hOpen
  | 2 => some .hClose
  | 3 => some .hTransmit
  | 4 => some .hError
  | 5 => some .hRxrdy
  | _ => none

/-- Decoding of an event at an in-port (R43, R117). -/
def decodeEvent (c : Params) : Event → Except DecodeError Instr
  | .reset => .ok .resetEvent
  | .init => .ok .usbInit
  | .deinit => .ok .usbDeinit
  | .cmd pkt => if pkt.length ≤ c.usbMaxpkt then .ok (decodeCmd c pkt) else .error .packetTooLong
  | .data pkt => if pkt.length ≤ c.usbMaxpkt then .ok (decodeData c pkt) else .error .packetTooLong
  | .canrx f => if f.inInterface then .ok (.canRxDone f) else .error .frameOutsideInterface
  | .canerr e => .ok (.canErr e)
  | .cantxdone => .ok .canTxDone
  | .fault => .ok .procException
  | .sample => .ok .dSample
  | .handle => .ok .dHandle
  | .clear => .ok .dClear

/-- Decoding of any signal: the row of the table it selects (R118), or a rejection by name. -/
def decode (c : Params) : Signal → Except DecodeError Instr
  | .event e => decodeEvent c e
  | .usbCmdIn msg =>
    match cmdFrame? c msg with
    | some b => .ok (.cmdResponse b[2] (cmdArgsOf b))
    | none => .error .noRow
  | .usbDataIn msg =>
    match toBuf Config.doutLen msg with
    | some b => decodeDout c b
    | none => .error .noRow
  | .slot k =>
    match handlerRow k with
    | some i => .ok i
    | none => .error .noSuchSlot
  | .canOpenReq a => .ok (.canOpen a)
  | .canCloseReq => .ok .canClose
  | .canTxStartReq f => if f.valid then .ok (.canTxStart f) else .error .frameOutsideInterface
  | .raise ix =>
    match flagAt c ix with
    | some f => .ok (.raise f)
    | none => .error .noSuchFlag
  | .btDecode p => .ok (.btDecode p)
  | .btCompute => .ok .btCompute
  | .sendResponse ec => .ok (.sendResponse ec)
  | .errMap e => .ok (.errMap e)

/-! ### The encoder -/

/-- A request packet of a code (R91, R92). -/
def cmdSignal (c : Params) (code : Byte) (a : CmdArgs) : Signal :=
  .event (.cmd (cmdMsg c code a).toList)

/-- The signal that selects an instruction: the bytes of its row's format for a wire row, the port
signal for a PORT row (R118). -/
def encode (c : Params) : Instr → Signal
  | .getSoftwHardwVer a => cmdSignal c 12#8 a
  | .cmdOpen a => cmdSignal c 2#8 a
  | .cmdClose a => cmdSignal c 3#8 a
  | .cmdReset a => cmdSignal c 1#8 a
  | .setSpeed a => cmdSignal c 4#8 a
  | .setMaskFilter a => cmdSignal c 5#8 a
  | .getStatus a => cmdSignal c 6#8 a
  | .getStatistics a => cmdSignal c 7#8 a
  | .getSerial a => cmdSignal c 8#8 a
  | .getSoftwVer a => cmdSignal c 9#8 a
  | .getHardwVer a => cmdSignal c 10#8 a
  | .resetTimestamp a => cmdSignal c 11#8 a
  | .cmdUnrecognized code a => cmdSignal c code a
  | .cmdResponse command a => .usbCmdIn (cmdMsg c command a).toList
  | .dataIn fl idw dlc data => .event (.data (dinMsg c fl idw dlc data).toList)
  | .dataOutCan fl idw dlc data ts =>
    .usbDataIn (doutWrite (zeros 21) c.dataSof Config.typeCan fl idw dlc data ts c.dataEof).toList
  | .dataOutErr code ts =>
    .usbDataIn (doutWrite (zeros 21) c.dataSof Config.typeErr c.fbErr 0#32 0#8 (errData code) ts
      c.dataEof).toList
  | .raise f => .raise (c.flagIx f).val
  | .dSample => .event .sample
  | .dHandle => .event .handle
  | .dClear => .event .clear
  | .hVersion => .slot 0
  | .hOpen => .slot 1
  | .hClose => .slot 2
  | .hTransmit => .slot 3
  | .hError => .slot 4
  | .hRxrdy => .slot 5
  | .btDecode p => .btDecode p
  | .btCompute => .btCompute
  | .sendResponse ec => .sendResponse ec
  | .errMap e => .errMap e
  | .usbCmdOut pkt => .event (.cmd pkt)
  | .usbDataOut pkt => .event (.data pkt)
  | .usbInit => .event .init
  | .usbDeinit => .event .deinit
  | .canOpen a => .canOpenReq a
  | .canClose => .canCloseReq
  | .canTxStart f => .canTxStartReq f
  | .canRxDone f => .event (.canrx f)
  | .canErr e => .event (.canerr e)
  | .canTxDone => .event .cantxdone
  | .procException => .event .fault
  | .resetEvent => .event .reset

/-! ### Words of spec/opcode_table.json -/

/-- The `n` bytes of a word, bits 7 to 0 first (the table's byte 0). -/
def wordBytes : Nat → Nat → Packet
  | 0, _ => []
  | n + 1, w => BitVec.ofNat 8 w :: wordBytes n (w / 256)

/-- The signal a table word stands for. The format is told by the channel and not by the bits
(R90), so the channel is taken from the word's length and, between the two 16-byte OUT channels,
from its start marker (log 18). A PORT row has no bits, so no word selects it. -/
def tableSignal (nbits w : Nat) : Option Signal :=
  let w := w % 2 ^ nbits
  if nbits = 0 then none
  else if nbits ≤ 128 then
    let pkt := wordBytes 16 w
    if pkt.head? = some Params.default.dataSof then some (.event (.data pkt))
    else some (.event (.cmd pkt))
  else if nbits ≤ 168 then some (.usbDataIn (wordBytes 21 w))
  else none

/-- The instruction the decoder reads from a table word, with the default parameters, whose marker
bytes the table uses (R118). -/
def decodeTableWord (nbits w : Nat) : Option Instr :=
  match tableSignal nbits w with
  | some sig => (decode Params.default sig).toOption
  | none => none

end Sys2Proof
end

