-- ==== Sys2Proof/Machine/State.lean ====
section
/-! DEFINITION. The state of the core (10_state.md), its reset value, and the reasons a step can have
no next state. -/

namespace Sys2Proof.Machine

open Sys2Proof

/-- Nothing of the spec stops the machine without a next state: every error condition is an effect
inside a step (R280), and a halted core is a state that no step changes (R36, R287). So no fault is
raised, by anyone: the type has no constructor. Safe. -/
inductive Fault where
  deriving DecidableEq, Repr

/-- Why an instruction or a signal has no meaning. -/
inductive Refusal where
  /-- An instruction of the table without a meaning yet; raised by `exec`'s arms only. Safe. -/
  | notModelled (mnemonic : String)
  /-- `CAN_RX_DONE` with a frame outside the interface, `dlc` above 8 or a standard identifier of
  more than 11 bits: "a model refuses it" (R256, U14); raised by `execCanRxDone`. Safe. -/
  | frameOutsideInterface
  /-- The environment's next event is no row of the table (`DecodeError`: a packet longer than
  `USB_MAXPKT`, a frame outside the interface); raised by `step`. Safe. -/
  | signal (e : DecodeError)
  deriving DecidableEq, Repr

/-- An element of `CAN_CALLS` (R40): a call on the CAN control component. -/
inductive CanCall where
  | open_ (a : OpenArgs)
  | close
  | txStart (f : Frame)
  | rxRearm
  deriving DecidableEq, Repr

/-- The four register fields `BT_COMPUTE` returns (R174). -/
structure RegFields where
  sjwF : Word32
  ts1F : Word32
  ts2F : Word32
  presc : Word32
  deriving DecidableEq, Repr

/-- What a value-returning operation returned when it was executed on its own (log 9). -/
inductive OpResult where
  /-- no such operation has been executed on its own -/
  | none_
  /-- `BT_COMPUTE`'s four words (R174) -/
  | fields (r : RegFields)
  /-- `ERR_MAP`'s byte (R233) -/
  | code (b : Byte)
  /-- the status `CAN_OPEN` or `CAN_CLOSE` returned (R251, R252) -/
  | status (st : Byte)
  deriving DecidableEq, Repr

/-- The seven conditions of R280. -/
inductive Condition where
  /-- class (a), R281 -/
  | cmdFramingError
  /-- class (a) by the spec's reading, R282 -/
  | unrecognizedCommand
  /-- class (a), R283 -/
  | dataFramingError
  /-- class (b), R284 -/
  | openFailure
  /-- class (b), R284 -/
  | closeFailure
  /-- class (c) with its mapped code, R285 -/
  | canBusError (code : Byte)
  /-- class (d), R287 -/
  | procException
  deriving DecidableEq, Repr

/-- The state of the core: every piece of state of 10_state.md, the levels on its two level inputs,
and the model's own fields. -/
structure State where
  /-- the build's parameters (R6); written by no step (log 5) -/
  params : Params
  /-- `FLAGS` (R20) -/
  flags : FlagWord params
  /-- `DSLOT` (R23), 3 bits with values 0 to 5 -/
  dslot : Fin 6
  /-- `DPH` (R23) -/
  dph : Phase
  /-- `DSNAP` (R23) -/
  dsnap : FlagWord params
  /-- `BT_SJW` (R24) -/
  btSjw : BitVec 2
  /-- `BT_TS1` (R24) -/
  btTs1 : BitVec 4
  /-- `BT_TS2` (R24) -/
  btTs2 : BitVec 3
  /-- `BT_BRP` (R24) -/
  btBrp : BitVec 17
  /-- `CM_S` (R25) -/
  cmS : Bool
  /-- `CM_L` (R25) -/
  cmL : Bool
  /-- `CM_O` (R25) -/
  cmO : Bool
  /-- `CMD_RX` (R26) -/
  cmdRx : Buf 16
  /-- `CMD_TX` (R27) -/
  cmdTx : Buf 16
  /-- `DATA_RX` (R28) -/
  dataRx : Buf 16
  /-- `DATA_TX` (R29) -/
  dataTx : Buf 21
  /-- `CAN_TX_SLOT` (R31) -/
  canTxSlot : Frame
  /-- `CAN_RX_SLOT` (R31) -/
  canRxSlot : Frame
  /-- `LAST_ERR` (R32) -/
  lastErr : Byte
  /-- `CMD_ARMED` (R33) -/
  cmdArmed : Bool
  /-- `DATA_ARMED` (R33) -/
  dataArmed : Bool
  /-- `CAN_OPEN_ST` (R34) -/
  canOpenSt : Bool
  /-- `CAN_TX_BUSY` (R34) -/
  canTxBusy : Bool
  /-- `FAULT` (R35) -/
  fault : Bool
  /-- `HALTED` (R36) -/
  halted : Bool
  /-- `OUT_CMD` (R40), oldest first -/
  outCmd : List (Buf 16)
  /-- `OUT_DATA` (R40), oldest first -/
  outData : List (Buf 21)
  /-- `CAN_CALLS` (R40), oldest first -/
  canCalls : List CanCall
  /-- the level on port tick_ms at this step (R39, R43; log 4) -/
  tickMs : Word32
  /-- the level on port can_status at this step (R39, R43; log 4) -/
  canStatus : Byte
  /-- MODEL: the environment's coming steps, the next one first (R7, R263; log 1) -/
  script : List Input
  /-- MODEL: how many unspecified buffers have been drawn (log 8) -/
  draws : Nat
  /-- MODEL: the value the last operation executed on its own returned (log 9) -/
  result : OpResult
  deriving DecidableEq, Repr

/-- A slot with every field 0 (R44). -/
def Frame.zero : Frame :=
  { id := 0#29, ext := false, rtr := false, dlc := 0#4, data := zeros 8 }

/-- The values of R44, with the default parameters of R6; the levels of the two inputs are the
environment's and are taken as 0 (log 11), and the script is empty (log 19). -/
def State.reset : State where
  params := Params.default
  flags := 0
  dslot := 0
  dph := .sample
  dsnap := 0
  btSjw := 0
  btTs1 := 0
  btTs2 := 0
  btBrp := 0
  cmS := false
  cmL := false
  cmO := false
  cmdRx := zeros 16
  cmdTx := zeros 16
  dataRx := zeros 16
  dataTx := zeros 21
  canTxSlot := Frame.zero
  canRxSlot := Frame.zero
  lastErr := 0
  cmdArmed := false
  dataArmed := false
  canOpenSt := false
  canTxBusy := false
  fault := false
  halted := false
  outCmd := []
  outData := []
  canCalls := []
  tickMs := 0
  canStatus := 0
  script := []
  draws := 0
  result := .none_

end Sys2Proof.Machine
end

