-- ==== Sys2Proof/Machine/Flags.lean ====
section
/-! DEFINITION. The flag word: every computation the spec makes on `FLAGS` (10_state.md R20 to R22,
20_memory.md R65, R67, 40_scheduler.md). -/

namespace Sys2Proof.Machine

open Sys2Proof

/-- `1 << f`: the bit of a flag (R140). -/
def flagBit (c : Params) (f : Flag) : FlagWord c :=
  1#c.flagW <<< (c.flagIx f).val

/-- Bit `f` of a flag word. -/
def hasFlag (c : Params) (w : FlagWord c) (f : Flag) : Bool :=
  w.getLsbD (c.flagIx f).val

/-- `FLAGS | (1 << f)`, the update of `RAISE` (R140). -/
def raiseBit (c : Params) (f : Flag) (w : FlagWord c) : FlagWord c :=
  w ||| flagBit c f

/-- `FLAGS & (1 << f)`, the snapshot of one bit that `D_SAMPLE` takes (R143). -/
def snapshot (c : Params) (f : Flag) (w : FlagWord c) : FlagWord c :=
  w &&& flagBit c f

/-- `FLAGS & ~DSNAP`, the update of `D_CLEAR` (R145). -/
def clearBits {n : Nat} (snap w : BitVec n) : BitVec n :=
  w &&& ~~~snap

/-- The port-level formula for one clock edge with set requests `S` and clear requests `C`:
`(FLAGS & ~C) | S`, set wins (R65, R342). No step of the model uses it: it equals the steps
clear-then-raise. -/
def portEdge {n : Nat} (w S C : BitVec n) : BitVec n :=
  (w &&& ~~~C) ||| S

/-- `PRIO[k]`: the flag of drain slot `k` (R6, R142). -/
def prio : Fin 6 → Flag
  | 0 => .version
  | 1 => .open_
  | 2 => .close
  | 3 => .transmit
  | 4 => .error
  | 5 => .rxrdy

/-- The six architected bits of the flag word (R21). -/
def flagMask (c : Params) : FlagWord c :=
  flagBit c .version ||| flagBit c .open_ ||| flagBit c .close ||| flagBit c .transmit
    ||| flagBit c .error ||| flagBit c .rxrdy

/-- The reserved bits read as 0 (R22). -/
def reservedZero (c : Params) (w : FlagWord c) : Prop :=
  w &&& ~~~flagMask c = 0

end Sys2Proof.Machine
end

