-- ==== Sys2Proof/Machine/Operands.lean ====
section
/-! DEFINITION. How operands are assembled from message bytes and message bytes from state: the
timing bytes, the prescaler, the mode byte, identifiers, the data-length-code, the version payload,
the error-code map (30_encoding.md, 41_bit_timing.md R171 to R174, 43_data_channel.md R222, R233). -/

namespace Sys2Proof.Machine

open Sys2Proof

/-- `((w - 1) mod 256) & 0xF`: a wire byte as `BT_TS1` (R93, R171). -/
def ts1Of (w : Byte) : BitVec 4 :=
  ((w - 1#8) &&& 0x0F#8).setWidth 4

/-- `((w - 1) mod 256) & 0x7`: a wire byte as `BT_TS2` (R93, R171). -/
def ts2Of (w : Byte) : BitVec 3 :=
  ((w - 1#8) &&& 0x07#8).setWidth 3

/-- `((w - 1) mod 256) & 0x3`: a wire byte as `BT_SJW` (R93, R171). -/
def sjwOf (w : Byte) : BitVec 2 :=
  ((w - 1#8) &&& 0x03#8).setWidth 2

/-- `floor(brp_wire * 3 / 2)` (R172). -/
def scaledPrescaler (wire : Nat) : Nat :=
  wire * Config.scaleNum / Config.scaleDen

/-- The stored prescaler of an OPEN payload: `MemRead(pkt, 8, 2)`, which is payload bytes 3 and 4,
scaled (R93, R170, R172). -/
def brpOf (p : Buf 10) : BitVec 17 :=
  BitVec.ofNat 17 (scaledPrescaler (memRead p 3 2))

/-- `(b & m) != 0` (R94, R101). -/
def testMask (b m : Byte) : Bool :=
  (b &&& m) != 0#8

/-- Identifier assembly, inbound: masked to 29 bits when extended, to 11 bits when standard
(R101). -/
def idOf (ext : Bool) (idw : Word32) : BitVec 29 :=
  if ext then (idw &&& 0x1FFFFFFF#32).setWidth 29 else (idw &&& 0x7FF#32).setWidth 29

/-- `min(dlc, 8)` of an inbound data-length-code byte (R114). -/
def clampDlc (b : Byte) : Nat :=
  min b.toNat 8

/-- The frame an inbound data message decodes to (R222). -/
def frameOf (c : Params) (fl : Byte) (idw : Word32) (dlc : Byte) (data : Buf 8) : Frame where
  ext := testMask fl c.fbExt
  rtr := testMask fl c.fbRtr
  id := idOf (testMask fl c.fbExt) idw
  dlc := BitVec.ofNat 4 (clampDlc dlc)
  data := trim (clampDlc dlc) data

/-- A received frame as the slot stores it: data bytes at index `dlc` and above as 0 (R256). -/
def storedFrame (f : Frame) : Frame :=
  { f with data := trim f.dlc.toNat f.data }

/-- The number of payload bytes relayed, `min(s.dlc, 8)` (R228). -/
def relayLen (f : Frame) : Nat :=
  min f.dlc.toNat 8

/-- The flag byte of an outbound CAN frame (R228): the error bit is never set. -/
def flagByte (c : Params) (f : Frame) : Byte :=
  (if f.ext then c.fbExt else 0#8) ||| (if f.rtr then c.fbRtr else 0#8)

/-- The wire byte of a receive-class error (R103, R233). -/
def rxCode : RxClass → Byte
  | .none_ => 0x00#8
  | .overrun => 0x01#8
  | .stuff => 0x20#8
  | .form => 0x21#8
  | .ack => 0x23#8
  | .bitrec => 0x24#8
  | .bitdom => 0x25#8
  | .crc => 0x27#8
  | .unknown => 0xFF#8

/-- `ERR_MAP(E)`: bus-off over error-passive over error-warning over the receive class (R233). -/
def errCode (e : ErrRec) : Byte :=
  if e.bof then 0x04#8
  else if e.epv then 0x03#8
  else if e.ewg then 0x02#8
  else rxCode e.rxc

/-- `CMD_TX[5..8]` of a version response: firmware high and low byte, hardware high and low byte
(R95, R195). -/
def versionBytes : Buf 4 :=
  #v[Config.fwVersion.extractLsb' 8 8, Config.fwVersion.extractLsb' 0 8,
    Config.hwVersion.extractLsb' 8 8, Config.hwVersion.extractLsb' 0 8]

/-- `BT_COMPUTE`: the stored descriptor as four register fields (R174, R104). -/
def regFields (s : State) : RegFields where
  sjwF := s.btSjw.setWidth 32 <<< s.params.sjwShift
  ts1F := s.btTs1.setWidth 32 <<< s.params.ts1Shift
  ts2F := s.btTs2.setWidth 32 <<< s.params.ts2Shift
  presc := s.btBrp.setWidth 32

/-- The arguments `H_OPEN` calls `CAN_OPEN` with (R213). -/
def openArgs (s : State) : OpenArgs where
  sjwF := (regFields s).sjwF
  ts1F := (regFields s).ts1F
  ts2F := (regFields s).ts2F
  presc := (regFields s).presc
  silent := s.cmS
  loopback := s.cmL
  oneshot := s.cmO

/-- The status byte of a response (R96): success for 0, "command failed" for every other code. -/
def respStatus (ec : Byte) : Byte :=
  if ec = Config.stOk then Config.respOk else Config.respFail

end Sys2Proof.Machine
end

