-- ==== Sys2Proof/Machine/Ops.lean ====
section
/-! DEFINITION. The operations the meanings share: enabling, raising a flag, raising a condition
(60_exceptions.md), the translator's two stages, parsing, building and emitting messages, and the
calls on the collaborator. -/

namespace Sys2Proof.Machine

open Sys2Proof

/-- A step with its enabling condition. While `HALTED` is 1 no agent has an enabled step (R36); a
step that is not enabled "does not exist" (R190, R336): the state stays as it was (log 3). -/
def State.ifEnabled (s : State) (enabled : Bool) (t : State) : Host.Outcome State Fault Refusal :=
  .next (if !s.halted && enabled then t else s)

/-- `RAISE(f)`: one atomic read-modify-write (R140). -/
def State.raise (s : State) (f : Flag) : State :=
  { s with flags := raiseBit s.params f s.flags }

/-- `raise <Condition>`: the effect of a condition inside the step that detected it (R280, table;
R281 to R287). It saves nothing, enters nothing, and there is no return (R291, R292). -/
def State.signal (s : State) : Condition → State
  | .cmdFramingError =>
    { s with fault := true, cmdRx := Config.unspec16 s.draws, draws := s.draws + 1 }
  | .unrecognizedCommand => { s with fault := true }
  | .dataFramingError =>
    { s with fault := true, dataRx := Config.unspec16 s.draws, draws := s.draws + 1 }
  | .openFailure => { s with canOpenSt := false }
  | .closeFailure => { s with canOpenSt := false }
  | .canBusError code => ({ s with lastErr := code }).raise .error
  | .procException => { s with fault := true, halted := true }

/-! ### Translator -/

/-- `BT_DECODE` of the ten payload bytes of an OPEN message (R170). -/
def State.btDecode (s : State) (p : Buf 10) : State :=
  { s with
    btTs1 := ts1Of p[0]
    btTs2 := ts2Of p[1]
    btSjw := sjwOf p[2]
    btBrp := brpOf p
    cmS := testMask p[8] s.params.cmSilent
    cmL := testMask p[8] s.params.cmLoopback
    cmO := testMask p[8] s.params.cmOneshot }

/-! ### Command channel -/

/-- `CMD_TX[5..14] <- 0`, done first for every accepted command (R193). -/
def State.clearPayload (s : State) : State :=
  { s with cmdTx := writeSlice s.cmdTx 5 (zeros 10) }

/-- `GET_SOFTW_HARDW_VER` inside `USB_CMD_OUT` (R195). -/
def State.acceptVersion (s : State) : State :=
  let s := s.clearPayload
  let s := { s with cmdTx := writeSlice s.cmdTx 5 versionBytes }
  s.raise .version

/-- `OPEN` inside `USB_CMD_OUT`, on its payload (R196). -/
def State.acceptOpen (s : State) (p : Buf 10) : State :=
  (s.clearPayload.btDecode p).raise .open_

/-- `CLOSE` inside `USB_CMD_OUT` (R197). -/
def State.acceptClose (s : State) : State :=
  s.clearPayload.raise .close

/-- Dispatch on the command code of a message that passed the three checks (R194). -/
def State.dispatch (s : State) (b : Buf 16) : State :=
  if b[2] = 12#8 then s.acceptVersion
  else if b[2] = 2#8 then s.acceptOpen (slice b 5 10)
  else if b[2] = 3#8 then s.acceptClose
  else s.signal .unrecognizedCommand

/-- `PARSE_COMMAND(pkt, len)` (R191). -/
def State.parseCommand (s : State) (pkt : Packet) : State :=
  match cmdFrame? s.params pkt with
  | none => s.signal .cmdFramingError
  | some b => ({ s with cmdRx := b }).dispatch b

/-- The `USB_CMD_OUT` step on a well-framed message, up to its own row's effect: enabled when
`CMD_ARMED = 1`; `CMD_ARMED <- 0`, `CMD_RX <- pkt` (R190, R191). -/
def State.takeCommand (s : State) (msg : Buf 16) (effect : State → State) :
    Host.Outcome State Fault Refusal :=
  s.ifEnabled s.cmdArmed (effect { s with cmdArmed := false, cmdRx := msg })

/-- `emit OUT_CMD(CMD_TX[0..15]) ; CMD_ARMED <- 1`: transmit a response and re-arm (R210, R211,
R262). The element appended is a copy (R40). -/
def State.transmitResponse (s : State) (msg : Buf 16) : State :=
  { s with cmdTx := msg, outCmd := s.outCmd ++ [msg], cmdArmed := true }

/-- The response `SEND_RESPONSE(ec)` builds in `CMD_TX`: bytes 0 to 4 and 15 written, 5 to 14 as
`PARSE_COMMAND` left them (R210). -/
def responseMsg (s : State) (ec : Byte) : Buf 16 :=
  (((((s.cmdTx.set 0 s.params.cmdSof).set 1 s.cmdRx[1]).set 2 s.cmdRx[2]).set 3
    (respStatus ec)).set 4 s.cmdRx[4]).set 15 s.params.cmdEof

/-- `SEND_RESPONSE(ec)` (R210). -/
def State.sendResponse (s : State) (ec : Byte) : State :=
  s.transmitResponse (responseMsg s ec)

/-! ### Data channel -/

/-- `PARSE_INCOMING_FRAME`, decode: fill `CAN_TX_SLOT` and raise TRANSMIT (R222). -/
def State.acceptFrame (s : State) (fl : Byte) (idw : Word32) (dlc : Byte) (data : Buf 8) : State :=
  ({ s with canTxSlot := frameOf s.params fl idw dlc data }).raise .transmit

/-- `PARSE_INCOMING_FRAME(pkt, len)` (R221, R222). -/
def State.parseFrame (s : State) (pkt : Packet) : State :=
  match dinFrame? s.params pkt with
  | none => s.signal .dataFramingError
  | some b =>
    ({ s with dataRx := b }).acceptFrame b[1] (BitVec.ofNat 32 (memRead b 2 4)) b[6] (slice b 7 8)

/-- `emit OUT_DATA(DATA_TX[0..20])` of a message built in `DATA_TX` (R228, R230, R262). The arm
latches are not touched (R229). -/
def State.transmitData (s : State) (msg : Buf 21) : State :=
  { s with dataTx := msg, outData := s.outData ++ [msg] }

/-- `EMIT_CAN_FRAME` (R228). -/
def State.emitCanFrame (s : State) : State :=
  let f := s.canRxSlot
  s.transmitData (doutWrite s.dataTx s.params.dataSof Config.typeCan (flagByte s.params f)
    (f.id.setWidth 32) (BitVec.ofNat 8 (relayLen f)) (trim (relayLen f) f.data) s.tickMs
    s.params.dataEof)

/-- `EMIT_CAN_ERROR` (R230). -/
def State.emitCanError (s : State) : State :=
  s.transmitData (doutWrite s.dataTx s.params.dataSof Config.typeErr s.params.fbErr 0#32 0#8
    (errData s.lastErr) s.tickMs s.params.dataEof)

/-! ### Calls on the CAN control component -/

/-- `CAN_OPEN(...) -> st` and `CAN_OPEN_ST <- (if st = 0 then 1 else 0)` (R251, R213): the status is
the level on can_status. A nonzero status is class (b) (R284). -/
def State.callOpen (s : State) (a : OpenArgs) : State :=
  let s := { s with canCalls := s.canCalls ++ [CanCall.open_ a] }
  if s.canStatus = Config.stOk then { s with canOpenSt := true } else s.signal .openFailure

/-- The status of `CAN_CLOSE`: 0 when already closed, else the environment's (R252). -/
def closeStatus (s : State) : Byte :=
  if s.canOpenSt then s.canStatus else Config.stOk

/-- `CAN_CLOSE() -> st` and `CAN_OPEN_ST <- 0` whatever `st` is (R252, R214); a nonzero status is
class (b) (R284). -/
def State.callClose (s : State) : State :=
  let st := closeStatus s
  let s := { s with canCalls := s.canCalls ++ [CanCall.close] }
  if st = Config.stOk then { s with canOpenSt := false } else s.signal .closeFailure

/-- `CAN_TX_START(frame)` (R253). -/
def State.callTxStart (s : State) (f : Frame) : State :=
  { s with canCalls := s.canCalls ++ [CanCall.txStart f], canTxBusy := true }

end Sys2Proof.Machine
end

