-- ==== Sys2Proof/Machine/Collaborator.lean ====
section
/-! DEFINITION. The collaborator interface (44_can_interface.md): calls on the CAN control component,
its three events, and the USB core's two class callbacks. -/

namespace Sys2Proof.Machine

open Sys2Proof

/-- USB_INIT: arm both channels, nothing else (R259). -/
def execUsbInit (s : State) : Host.Outcome State Fault Refusal :=
  s.ifEnabled true { s with cmdArmed := true, dataArmed := true }

/-- USB_DEINIT: disarm both channels, nothing else (R260). -/
def execUsbDeinit (s : State) : Host.Outcome State Fault Refusal :=
  s.ifEnabled true { s with cmdArmed := false, dataArmed := false }

/-- CAN_OPEN (R251); on its own it returns the collaborator's status in `result` (log 9). -/
def execCanOpen (a : OpenArgs) (s : State) : Host.Outcome State Fault Refusal :=
  s.ifEnabled true { s.callOpen a with result := .status s.canStatus }

/-- CAN_CLOSE (R252); on its own it returns the status in `result` (log 9). -/
def execCanClose (s : State) : Host.Outcome State Fault Refusal :=
  s.ifEnabled true { s.callClose with result := .status (closeStatus s) }

/-- CAN_TX_START(frame) (R253). -/
def execCanTxStart (f : Frame) (s : State) : Host.Outcome State Fault Refusal :=
  s.ifEnabled true (s.callTxStart f)

/-- `CAN_RX_DONE`'s update: fill the slot, record the re-arm, raise RXRDY (R256). -/
def State.receive (s : State) (f : Frame) : State :=
  ({ s with canRxSlot := storedFrame f, canCalls := s.canCalls ++ [CanCall.rxRearm] }).raise .rxrdy

/-- CAN_RX_DONE(frame) (R256): a frame outside the interface is refused (R256 (b), U14). -/
def execCanRxDone (f : Frame) (s : State) : Host.Outcome State Fault Refusal :=
  if f.inInterface then s.ifEnabled true (s.receive f) else .refused .frameOutsideInterface

/-- CAN_ERR(E): the class (c) condition with the mapped code (R257, R285). -/
def execCanErr (e : ErrRec) (s : State) : Host.Outcome State Fault Refusal :=
  s.ifEnabled true (s.signal (.canBusError (errCode e)))

/-- CAN_TX_DONE (R258). -/
def execCanTxDone (s : State) : Host.Outcome State Fault Refusal :=
  s.ifEnabled true { s with canTxBusy := false, dataArmed := true }

end Sys2Proof.Machine
end

