-- ==== Sys2Proof/Machine/Command.lean ====
section
/-! DEFINITION. The command channel (42_command_channel.md): the delivery, one meaning per command
code, and the response. Executing a request row is the `USB_CMD_OUT` step that delivers a
well-framed message with that code. -/

namespace Sys2Proof.Machine

open Sys2Proof

/-- `USB_CMD_OUT(pkt)` on any packet (R190): enabled when `CMD_ARMED = 1`. -/
def execUsbCmdOut (pkt : Packet) (s : State) : Host.Outcome State Fault Refusal :=
  s.ifEnabled s.cmdArmed ((({ s with cmdArmed := false } : State)).parseCommand pkt)

/-- GET_SOFTW_HARDW_VER, code 12 (R195). -/
def execGetSoftwHardwVer (a : CmdArgs) (s : State) : Host.Outcome State Fault Refusal :=
  s.takeCommand (cmdMsg s.params 12#8 a) State.acceptVersion

/-- OPEN, code 2 (R196). -/
def execCmdOpen (a : CmdArgs) (s : State) : Host.Outcome State Fault Refusal :=
  s.takeCommand (cmdMsg s.params 2#8 a) (State.acceptOpen · a.payload)

/-- CLOSE, code 3 (R197). -/
def execCmdClose (a : CmdArgs) (s : State) : Host.Outcome State Fault Refusal :=
  s.takeCommand (cmdMsg s.params 3#8 a) State.acceptClose

/-- RESET, code 1: unrecognized; it does not reset the core (R198). -/
def execCmdReset (a : CmdArgs) (s : State) : Host.Outcome State Fault Refusal :=
  s.takeCommand (cmdMsg s.params 1#8 a) (State.signal · .unrecognizedCommand)

/-- SET_SPEED, code 4: unrecognized (R199). -/
def execSetSpeed (a : CmdArgs) (s : State) : Host.Outcome State Fault Refusal :=
  s.takeCommand (cmdMsg s.params 4#8 a) (State.signal · .unrecognizedCommand)

/-- SET_MASK_FILTER, code 5: unrecognized (R200). -/
def execSetMaskFilter (a : CmdArgs) (s : State) : Host.Outcome State Fault Refusal :=
  s.takeCommand (cmdMsg s.params 5#8 a) (State.signal · .unrecognizedCommand)

/-- GET_STATUS, code 6: unrecognized (R201). -/
def execGetStatus (a : CmdArgs) (s : State) : Host.Outcome State Fault Refusal :=
  s.takeCommand (cmdMsg s.params 6#8 a) (State.signal · .unrecognizedCommand)

/-- GET_STATISTICS, code 7: unrecognized (R202). -/
def execGetStatistics (a : CmdArgs) (s : State) : Host.Outcome State Fault Refusal :=
  s.takeCommand (cmdMsg s.params 7#8 a) (State.signal · .unrecognizedCommand)

/-- GET_SERIAL, code 8: unrecognized (R203). -/
def execGetSerial (a : CmdArgs) (s : State) : Host.Outcome State Fault Refusal :=
  s.takeCommand (cmdMsg s.params 8#8 a) (State.signal · .unrecognizedCommand)

/-- GET_SOFTW_VER, code 9: unrecognized (R204). -/
def execGetSoftwVer (a : CmdArgs) (s : State) : Host.Outcome State Fault Refusal :=
  s.takeCommand (cmdMsg s.params 9#8 a) (State.signal · .unrecognizedCommand)

/-- GET_HARDW_VER, code 10: unrecognized (R205). -/
def execGetHardwVer (a : CmdArgs) (s : State) : Host.Outcome State Fault Refusal :=
  s.takeCommand (cmdMsg s.params 10#8 a) (State.signal · .unrecognizedCommand)

/-- RESET_TIMESTAMP, code 11: unrecognized; the tick is an input and is not reset (R206). -/
def execResetTimestamp (a : CmdArgs) (s : State) : Host.Outcome State Fault Refusal :=
  s.takeCommand (cmdMsg s.params 11#8 a) (State.signal · .unrecognizedCommand)

/-- CMD_UNRECOGNIZED: a code no row lists (R207). -/
def execCmdUnrecognized (code : Byte) (a : CmdArgs) (s : State) :
    Host.Outcome State Fault Refusal :=
  s.takeCommand (cmdMsg s.params code a) (State.signal · .unrecognizedCommand)

/-- CMD_RESPONSE: the response crosses usb_cmd_in, and reception is re-armed (R96, R210; log 16). -/
def execCmdResponse (command : Byte) (a : CmdArgs) (s : State) :
    Host.Outcome State Fault Refusal :=
  s.ifEnabled true (s.transmitResponse (cmdMsg s.params command a))

/-- SEND_RESPONSE(ec) (R210). -/
def execSendResponse (ec : Byte) (s : State) : Host.Outcome State Fault Refusal :=
  s.ifEnabled true (s.sendResponse ec)

end Sys2Proof.Machine
end

