-- ==== Sys2Proof/Machine/Data.lean ====
section
/-! DEFINITION. The data channel (43_data_channel.md): delivery and decode of inbound messages, the
outbound messages, and the error-code map. -/

namespace Sys2Proof.Machine

open Sys2Proof

/-- `USB_DATA_OUT(pkt)` on any packet (R220): enabled when `DATA_ARMED = 1`. -/
def execUsbDataOut (pkt : Packet) (s : State) : Host.Outcome State Fault Refusal :=
  s.ifEnabled s.dataArmed ((({ s with dataArmed := false } : State)).parseFrame pkt)

/-- DATA_IN: the `USB_DATA_OUT` step on a well-framed message (R220, R222). -/
def execDataIn (fl : Byte) (idw : Word32) (dlc : Byte) (data : Buf 8) (s : State) :
    Host.Outcome State Fault Refusal :=
  s.ifEnabled s.dataArmed
    (({ s with dataArmed := false, dataRx := dinMsg s.params fl idw dlc data }).acceptFrame
      fl idw dlc data)

/-- DATA_OUT_CAN: a CAN-frame message is built in `DATA_TX` and crosses usb_data_in (R228, R262;
log 16). -/
def execDataOutCan (fl : Byte) (idw : Word32) (dlc : Byte) (data : Buf 8) (ts : Word32)
    (s : State) : Host.Outcome State Fault Refusal :=
  s.ifEnabled true (s.transmitData
    (doutWrite s.dataTx s.params.dataSof Config.typeCan fl idw dlc data ts s.params.dataEof))

/-- DATA_OUT_ERR: an error-frame message is built in `DATA_TX` and crosses usb_data_in (R230, R102;
log 16). -/
def execDataOutErr (code : Byte) (ts : Word32) (s : State) : Host.Outcome State Fault Refusal :=
  s.ifEnabled true (s.transmitData
    (doutWrite s.dataTx s.params.dataSof Config.typeErr s.params.fbErr 0#32 0#8 (errData code) ts
      s.params.dataEof))

/-- ERR_MAP(E) (R233): a pure function; on its own it returns its byte in `result` (log 9). -/
def execErrMap (e : ErrRec) (s : State) : Host.Outcome State Fault Refusal :=
  s.ifEnabled true { s with result := .code (errCode e) }

end Sys2Proof.Machine
end

