-- ==== Sys2Proof/Machine/Environment.lean ====
section
/-! DEFINITION. The two events of the environment that belong to no channel: the processor exception
(60_exceptions.md R287) and reset (70_reset_and_hazards.md R320). Neither waits for `HALTED = 0`. -/

namespace Sys2Proof.Machine

open Sys2Proof

/-- PROC_EXCEPTION (R287). -/
def execProcException (s : State) : Host.Outcome State Fault Refusal :=
  .next (s.signal .procException)

/-- RESET_EVENT: every piece of the core's state at its value of R44, the three output sequences
empty; enabled in every state (R320). The build's parameters, the environment's levels and script
and the draw counter are not the core's and stay (log 10). -/
def execResetEvent (s : State) : Host.Outcome State Fault Refusal :=
  .next { State.reset with
    params := s.params
    flags := 0
    dsnap := 0
    tickMs := s.tickMs
    canStatus := s.canStatus
    script := s.script
    draws := s.draws }

end Sys2Proof.Machine
end

