-- ==== Sys2Proof/Machine/Handlers.lean ====
section
/-! DEFINITION. The six drain handlers (42_command_channel.md R212 to R214, 43_data_channel.md R225,
R228, R230): each is the body of `D_HANDLE` in its slot. The move of `DPH` to CLEAR is `D_HANDLE`'s
(R144), not the handler's. -/

namespace Sys2Proof.Machine

open Sys2Proof

/-- The body of `H_VERSION` (R212). -/
def handleVersion (s : State) : State :=
  s.sendResponse Config.stOk

/-- The body of `H_OPEN`: compute the fields, open, respond with the status (R213). -/
def handleOpen (s : State) : State :=
  (s.callOpen (openArgs s)).sendResponse s.canStatus

/-- The body of `H_CLOSE`: close, respond with the status (R214). -/
def handleClose (s : State) : State :=
  s.callClose.sendResponse (closeStatus s)

/-- The body of `H_TRANSMIT` (R225): it does not re-arm the data channel (R226). -/
def handleTransmit (s : State) : State :=
  s.callTxStart s.canTxSlot

/-- The body of `H_ERROR` (R230). -/
def handleError (s : State) : State :=
  s.emitCanError

/-- The body of `H_RXRDY` (R228). -/
def handleRxrdy (s : State) : State :=
  s.emitCanFrame

/-- The handler table of `D_HANDLE` (R144). -/
def handlerBody : Fin 6 → State → State
  | 0 => handleVersion
  | 1 => handleOpen
  | 2 => handleClose
  | 3 => handleTransmit
  | 4 => handleError
  | 5 => handleRxrdy

/-- H_VERSION (R212). -/
def execHVersion (s : State) : Host.Outcome State Fault Refusal :=
  s.ifEnabled true (handleVersion s)

/-- H_OPEN (R213). -/
def execHOpen (s : State) : Host.Outcome State Fault Refusal :=
  s.ifEnabled true (handleOpen s)

/-- H_CLOSE (R214). -/
def execHClose (s : State) : Host.Outcome State Fault Refusal :=
  s.ifEnabled true (handleClose s)

/-- H_TRANSMIT (R225). -/
def execHTransmit (s : State) : Host.Outcome State Fault Refusal :=
  s.ifEnabled true (handleTransmit s)

/-- H_ERROR (R230). -/
def execHError (s : State) : Host.Outcome State Fault Refusal :=
  s.ifEnabled true (handleError s)

/-- H_RXRDY (R228). -/
def execHRxrdy (s : State) : Host.Outcome State Fault Refusal :=
  s.ifEnabled true (handleRxrdy s)

end Sys2Proof.Machine
end

