-- ==== Sys2Proof/Machine/Scheduler.lean ====
section
/-! DEFINITION. The flag scheduler (40_scheduler.md): RAISE and the three phases of a drain slot. -/

namespace Sys2Proof.Machine

open Sys2Proof

/-- `D_SAMPLE`'s update: snapshot the slot's bit; go to HANDLE if it is set, else to the next slot
(R143). -/
def State.sample (s : State) : State :=
  let snap := snapshot s.params (prio s.dslot) s.flags
  if snap = 0 then { s with dslot := s.dslot + 1, dph := .sample, dsnap := 0 }
  else { s with dsnap := snap, dph := .handle }

/-- `D_HANDLE`'s update: the slot's handler, then `DPH <- CLEAR` (R144). -/
def State.handle (s : State) : State :=
  { handlerBody s.dslot s with dph := .clear }

/-- `D_CLEAR`'s update: clear the bits of the snapshot and go to the next slot (R145). -/
def State.clear (s : State) : State :=
  { s with
    flags := clearBits s.dsnap s.flags
    dsnap := 0
    dslot := s.dslot + 1
    dph := .sample }

/-- RAISE(f) (R140). -/
def execRaise (f : Flag) (s : State) : Host.Outcome State Fault Refusal :=
  s.ifEnabled true (s.raise f)

/-- D_SAMPLE (R143), enabled when `DPH = SAMPLE`. -/
def execDSample (s : State) : Host.Outcome State Fault Refusal :=
  s.ifEnabled (s.dph = .sample) s.sample

/-- D_HANDLE (R144), enabled when `DPH = HANDLE`. -/
def execDHandle (s : State) : Host.Outcome State Fault Refusal :=
  s.ifEnabled (s.dph = .handle) s.handle

/-- D_CLEAR (R145), enabled when `DPH = CLEAR`. -/
def execDClear (s : State) : Host.Outcome State Fault Refusal :=
  s.ifEnabled (s.dph = .clear) s.clear

end Sys2Proof.Machine
end

