-- ==== Sys2Proof/Machine/Timing.lean ====
section
/-! DEFINITION. The bit-timing translator executed on its own (41_bit_timing.md). Inside a step of
the core the two stages run as `State.btDecode` and `regFields`. -/

namespace Sys2Proof.Machine

open Sys2Proof

/-- `BT_DECODE` (R170). -/
def execBtDecode (p : Buf 10) (s : State) : Host.Outcome State Fault Refusal :=
  s.ifEnabled true (s.btDecode p)

/-- `BT_COMPUTE` (R174): a pure function; on its own it returns its four words in `result`
(log 9). -/
def execBtCompute (s : State) : Host.Outcome State Fault Refusal :=
  s.ifEnabled true { s with result := .fields (regFields s) }

end Sys2Proof.Machine
end

