-- ==== Sys2Proof/Machine/Dispatch.lean ====
section
/-! DEFINITION. One arm per row of spec/opcode_table.json, each one call of its meaning. -/

namespace Sys2Proof.Machine

open Sys2Proof

def exec (i : Instr) (s : State) : Host.Outcome State Fault Refusal :=
  match i with
  | .getSoftwHardwVer a => Sys2Proof.Machine.execGetSoftwHardwVer a s
  | .cmdOpen a => Sys2Proof.Machine.execCmdOpen a s
  | .cmdClose a => Sys2Proof.Machine.execCmdClose a s
  | .cmdReset a => Sys2Proof.Machine.execCmdReset a s
  | .setSpeed a => Sys2Proof.Machine.execSetSpeed a s
  | .setMaskFilter a => Sys2Proof.Machine.execSetMaskFilter a s
  | .getStatus a => Sys2Proof.Machine.execGetStatus a s
  | .getStatistics a => Sys2Proof.Machine.execGetStatistics a s
  | .getSerial a => Sys2Proof.Machine.execGetSerial a s
  | .getSoftwVer a => Sys2Proof.Machine.execGetSoftwVer a s
  | .getHardwVer a => Sys2Proof.Machine.execGetHardwVer a s
  | .resetTimestamp a => Sys2Proof.Machine.execResetTimestamp a s
  | .cmdUnrecognized code a => Sys2Proof.Machine.execCmdUnrecognized code a s
  | .cmdResponse command a => Sys2Proof.Machine.execCmdResponse command a s
  | .dataIn fl idw dlc data => Sys2Proof.Machine.execDataIn fl idw dlc data s
  | .dataOutCan fl idw dlc data ts => Sys2Proof.Machine.execDataOutCan fl idw dlc data ts s
  | .dataOutErr code ts => Sys2Proof.Machine.execDataOutErr code ts s
  | .raise f => Sys2Proof.Machine.execRaise f s
  | .dSample => Sys2Proof.Machine.execDSample s
  | .dHandle => Sys2Proof.Machine.execDHandle s
  | .dClear => Sys2Proof.Machine.execDClear s
  | .hVersion => Sys2Proof.Machine.execHVersion s
  | .hOpen => Sys2Proof.Machine.execHOpen s
  | .hClose => Sys2Proof.Machine.execHClose s
  | .hTransmit => Sys2Proof.Machine.execHTransmit s
  | .hError => Sys2Proof.Machine.execHError s
  | .hRxrdy => Sys2Proof.Machine.execHRxrdy s
  | .btDecode p => Sys2Proof.Machine.execBtDecode p s
  | .btCompute => Sys2Proof.Machine.execBtCompute s
  | .sendResponse ec => Sys2Proof.Machine.execSendResponse ec s
  | .errMap e => Sys2Proof.Machine.execErrMap e s
  | .usbCmdOut pkt => Sys2Proof.Machine.execUsbCmdOut pkt s
  | .usbDataOut pkt => Sys2Proof.Machine.execUsbDataOut pkt s
  | .usbInit => Sys2Proof.Machine.execUsbInit s
  | .usbDeinit => Sys2Proof.Machine.execUsbDeinit s
  | .canOpen a => Sys2Proof.Machine.execCanOpen a s
  | .canClose => Sys2Proof.Machine.execCanClose s
  | .canTxStart f => Sys2Proof.Machine.execCanTxStart f s
  | .canRxDone f => Sys2Proof.Machine.execCanRxDone f s
  | .canErr e => Sys2Proof.Machine.execCanErr e s
  | .canTxDone => Sys2Proof.Machine.execCanTxDone s
  | .procException => Sys2Proof.Machine.execProcException s
  | .resetEvent => Sys2Proof.Machine.execResetEvent s

end Sys2Proof.Machine
end

