-- ==== Sys2Proof/Machine/Fetch.lean ====
section
/-! DEFINITION. Which step comes next. The core fetches no instruction (10_state.md R38, 20_memory.md
R78): what it does next is the environment's next event, or the next step of `MAIN`. -/

namespace Sys2Proof.Machine

open Sys2Proof

/-- The step `MAIN` takes next: the one its phase names (R143 to R145, R150). -/
def mainInstr (s : State) : Instr :=
  match s.dph with
  | .sample => .dSample
  | .handle => .dHandle
  | .clear => .dClear

/-- The state in which a script entry's event happens: the entry's levels on the two level inputs,
the rest of the script still to come (R39, R263). -/
def State.present (s : State) (inp : Input) (rest : List Input) : State :=
  { s with tickMs := inp.tickMs, canStatus := inp.canStatus, script := rest }

/-- The next instruction and the state it runs in: the head of the script, or, when the script is
empty, `MAIN`'s next step, since the main loop never ends (R152, log 2). -/
def fetch (s : State) : Except DecodeError (Instr × State) :=
  match s.script with
  | [] => .ok (mainInstr s, s)
  | inp :: rest =>
    match decode s.params (.event inp.event) with
    | .ok i => .ok (i, s.present inp rest)
    | .error e => .error e

/-- A script whose next entry is event `e` at the present levels. -/
def State.deliver (s : State) (e : Event) : State :=
  { s with script := { tickMs := s.tickMs, canStatus := s.canStatus, event := e } :: s.script }

/-- `MAIN` about to run the handler of slot `k`, its flag set and sampled. -/
def State.atHandler (s : State) (k : Fin 6) : State :=
  { s with
    flags := raiseBit s.params (prio k) s.flags
    dslot := k
    dph := .handle
    dsnap := flagBit s.params (prio k) }

/-- The frame record whose relay is the `DATA_OUT_CAN` message with these fields (R228). -/
def relayedFrame (c : Params) (fl : Byte) (idw : Word32) (dlc : Byte) (data : Buf 8) : Frame where
  id := idw.setWidth 29
  ext := (fl &&& c.fbExt) != 0#8
  rtr := (fl &&& c.fbRtr) != 0#8
  dlc := BitVec.ofNat 4 (min dlc.toNat 8)
  data := data

/-- A table word placed where the next step finds it (log 19). An OUT packet becomes the next event
of the script, on a channel that is armed, in a core that is not halted. A message of the data IN
channel, which the core itself produces, becomes the next thing `MAIN` emits: the drain stands at
the handler of that message with its source registers holding the message's fields. -/
def State.placeTableWord (s : State) (nbits w : Nat) : State :=
  match tableSignal nbits w with
  | some (.event (.cmd pkt)) => { s.deliver (.cmd pkt) with cmdArmed := true, halted := false }
  | some (.event (.data pkt)) => { s.deliver (.data pkt) with dataArmed := true, halted := false }
  | some (.usbDataIn msg) =>
    match decode s.params (.usbDataIn msg) with
    | .ok (.dataOutCan fl idw dlc data ts) =>
      let s := s.atHandler 5
      let s := { s with tickMs := ts, canRxSlot := relayedFrame s.params fl idw dlc data }
      { s.deliver .handle with halted := false }
    | .ok (.dataOutErr code ts) =>
      let s := s.atHandler 4
      let s := { s with tickMs := ts, lastErr := code }
      { s.deliver .handle with halted := false }
    | _ => s
  | _ => s

end Sys2Proof.Machine
end

