-- ==== Sys2Proof/Machine/Step.lean ====
section
/-! DEFINITION. One step of the machine: the next event of the environment, or the next step of
`MAIN` (00_scope.md R7, 20_memory.md R71). -/

namespace Sys2Proof.Machine

open Sys2Proof

/-- One atomic step by one agent: fetch it, run it. A signal that is no row is refused by name. -/
def step (s : State) : Host.Outcome State Fault Refusal :=
  match fetch s with
  | .ok (i, s') => exec i s'
  | .error e => .refused (.signal e)

/-- `s` with a word of spec/opcode_table.json placed where `step` finds its next instruction
(log 19). -/
def State.withFetchWord (s : State) (nbits w : Nat) : State :=
  s.placeTableWord nbits w

end Sys2Proof.Machine
end

