-- ==== Sys2Proof/Machine/Script.lean ====
section
/-! DEFINITION. The event-script notation of 30_encoding.md R117: its lines and pseudo-operations,
run on a state. It is notation only; every line is steps of the machine or a change of an input
level. -/

namespace Sys2Proof.Machine

open Sys2Proof

/-- A line of an event script (R117), but for `expect`, which is an assertion. -/
inductive Line where
  /-- a line that names one step -/
  | event (e : Event)
  /-- `tick <n>`: the environment sets `TICK_MS` -/
  | tick (n : Word32)
  /-- `status <n>`: the environment sets the status the collaborator will return -/
  | status (st : Byte)
  /-- `slot`: sample; then, if that sample found the flag set, handle and clear -/
  | slot
  /-- `pass`: `slot` repeated until `DSLOT` returns to 0 with `DPH` = SAMPLE -/
  | pass
  /-- `drain`: `pass` repeated until a whole pass finds `FLAGS` = 0 at every sample; bounded here
  by the number of passes given -/
  | drain (passes : Nat)
  deriving DecidableEq, Repr

/-- One step on event `e` now, the script otherwise as it is. -/
def runEvent (e : Event) (s : State) : Host.Outcome State Fault Refusal :=
  step (s.deliver e)

/-- The next state of an outcome, continued with `k`. -/
def andThen (o : Host.Outcome State Fault Refusal)
    (k : State → Host.Outcome State Fault Refusal) : Host.Outcome State Fault Refusal :=
  match o with
  | .next s => k s
  | .fault r => .fault r
  | .refused r => .refused r

/-- `slot` (R117). -/
def runSlot (s : State) : Host.Outcome State Fault Refusal :=
  andThen (runEvent .sample s) fun t =>
    if t.dph = .handle then andThen (runEvent .handle t) (runEvent .clear) else .next t

/-- `slot` repeated until `DSLOT` is 0 again in phase SAMPLE, at most `n` times. -/
def runSlots : Nat → State → Host.Outcome State Fault Refusal
  | 0, s => .next s
  | n + 1, s =>
    andThen (runSlot s) fun t =>
      if t.dslot = 0 ∧ t.dph = .sample then .next t else runSlots n t

/-- `pass` (R117): six slots when started at slot 0. -/
def runPass (s : State) : Host.Outcome State Fault Refusal :=
  runSlots 6 s

/-- `drain` (R117): passes until one starts with `FLAGS` = 0 and finds nothing, at most `n`. -/
def runDrain : Nat → State → Host.Outcome State Fault Refusal
  | 0, s => .next s
  | n + 1, s => andThen (runPass s) fun t => if s.flags = 0 then .next t else runDrain n t

/-- One line of a script. -/
def runLine : Line → State → Host.Outcome State Fault Refusal
  | .event e, s => runEvent e s
  | .tick n, s => .next { s with tickMs := n }
  | .status st, s => .next { s with canStatus := st }
  | .slot, s => runSlot s
  | .pass, s => runPass s
  | .drain n, s => runDrain n s

/-- A script, line by line. -/
def runScript : List Line → State → Host.Outcome State Fault Refusal
  | [], s => .next s
  | l :: ls, s => andThen (runLine l s) (runScript ls)

end Sys2Proof.Machine
end

