-- ==== Sys2Proof/Safety.lean ====
section
/-! DEFINITION. The terms the claims use: who takes a step, the messages of the wire written out byte
by byte, the invariants of the core, and the states its laws speak of. -/

namespace Sys2Proof.Machine

open Sys2Proof

/-! ### Agents -/

/-- The agents of R296. -/
inductive Agent where
  | uisr | cisr | main | environment
  deriving DecidableEq, Repr

/-- The agent that takes an instruction as a step of its own (R294, R296). Operations that occur only
inside another step, and messages at out-ports, have none (R141, R297). -/
def agentOf : Instr → Option Agent
  | .getSoftwHardwVer _ | .cmdOpen _ | .cmdClose _ | .cmdReset _ | .setSpeed _
  | .setMaskFilter _ | .getStatus _ | .getStatistics _ | .getSerial _ | .getSoftwVer _
  | .getHardwVer _ | .resetTimestamp _ | .cmdUnrecognized _ _ => some .uisr
  | .dataIn _ _ _ _ | .usbCmdOut _ | .usbDataOut _ | .usbInit | .usbDeinit => some .uisr
  | .canRxDone _ | .canErr _ | .canTxDone => some .cisr
  | .dSample | .dHandle | .dClear => some .main
  | .procException | .resetEvent => some .environment
  | .cmdResponse _ _ | .dataOutCan _ _ _ _ _ | .dataOutErr _ _ => none
  | .raise _ | .hVersion | .hOpen | .hClose | .hTransmit | .hError | .hRxrdy => none
  | .btDecode _ | .btCompute | .sendResponse _ | .errMap _ => none
  | .canOpen _ | .canClose | .canTxStart _ => none

/-- The instructions whose step holds a `RAISE(f)` (R141), and `RAISE(f)` itself. -/
def produces : Flag → Instr → Bool
  | .version, .getSoftwHardwVer _ => true
  | .open_, .cmdOpen _ => true
  | .close, .cmdClose _ => true
  | .version, .usbCmdOut _ => true
  | .open_, .usbCmdOut _ => true
  | .close, .usbCmdOut _ => true
  | .transmit, .dataIn _ _ _ _ => true
  | .transmit, .usbDataOut _ => true
  | .error, .canErr _ => true
  | .rxrdy, .canRxDone _ => true
  | f, .raise g => f = g
  | _, _ => false

/-! ### Messages, byte by byte -/

/-- The response to the command in `CMD_RX` with a status byte (R96). -/
def answer (s : State) (status : Byte) : Buf 16 :=
  #v[s.params.cmdSof, s.cmdRx[1], s.cmdRx[2], status, s.cmdRx[4],
    s.cmdTx[5], s.cmdTx[6], s.cmdTx[7], s.cmdTx[8], s.cmdTx[9],
    s.cmdTx[10], s.cmdTx[11], s.cmdTx[12], s.cmdTx[13], s.cmdTx[14], s.params.cmdEof]

/-- `CMD_TX` with its payload bytes 5 to 14 replaced by ten bytes. -/
def withPayload (tx : Buf 16) (p : Buf 10) : Buf 16 :=
  #v[tx[0], tx[1], tx[2], tx[3], tx[4], p[0], p[1], p[2], p[3], p[4],
    p[5], p[6], p[7], p[8], p[9], tx[15]]

/-- The response payload of GET_SOFTW_HARDW_VER (R95). -/
def versionPayload : Buf 10 :=
  #v[0x00#8, 0x10#8, 0x00#8, 0x10#8, 0#8, 0#8, 0#8, 0#8, 0#8, 0#8]

/-- A 21-byte message of R98, big-endian identifier and timestamp. -/
def dout21 (c : Params) (ty fl : Byte) (id : Word32) (dlc : Byte) (d : Buf 8) (ts : Word32) :
    Buf 21 :=
  #v[c.dataSof, ty, fl,
    id.extractLsb' 24 8, id.extractLsb' 16 8, id.extractLsb' 8 8, id.extractLsb' 0 8, dlc,
    d[0], d[1], d[2], d[3], d[4], d[5], d[6], d[7],
    ts.extractLsb' 24 8, ts.extractLsb' 16 8, ts.extractLsb' 8 8, ts.extractLsb' 0 8, c.dataEof]

/-- The message that relays a received frame (R98, R228). -/
def canMsg (c : Params) (f : Frame) (ts : Word32) : Buf 21 :=
  dout21 c 0#8 ((if f.ext then c.fbExt else 0#8) ||| (if f.rtr then c.fbRtr else 0#8))
    (f.id.setWidth 32) (BitVec.ofNat 8 (min f.dlc.toNat 8))
    (Vector.ofFn fun i : Fin 8 => if i.val < min f.dlc.toNat 8 then f.data[i.val] else 0#8) ts

/-- The message that reports an error code (R102, R230). -/
def errMsg (c : Params) (code : Byte) (ts : Word32) : Buf 21 :=
  dout21 c 3#8 c.fbErr 0#32 0#8 #v[code, 0#8, 0#8, 0#8, 0#8, 0#8, 0#8, 0#8] ts

/-- The twelve wire bytes of the error-code table (R103). -/
def wireCodes : List Byte :=
  [0x00#8, 0x01#8, 0x02#8, 0x03#8, 0x04#8, 0x20#8, 0x21#8, 0x23#8, 0x24#8, 0x25#8, 0x27#8, 0xFF#8]

/-! ### Invariants -/

/-- The scheduler's invariant: well-formed parameters (R6), reserved bits 0 (R22, R46 (b)), and
`DSNAP` either 0 in SAMPLE or exactly the bit of the current slot, which is set in `FLAGS`
(R46 (c), R149). -/
structure SchedInv (s : State) : Prop where
  params_wf : s.params.wf = true
  reserved : reservedZero s.params s.flags
  snap_sample : s.dph = .sample → s.dsnap = 0
  snap_window : s.dph ≠ .sample → s.dsnap = flagBit s.params (prio s.dslot)
  flag_window : s.dph ≠ .sample → hasFlag s.params s.flags (prio s.dslot) = true

/-- The data invariant: both slots hold records of R30 (R46 (d)), the stored prescaler is in its
range (R24), `LAST_ERR` is a byte of the table (R103), and a halted core shows the fault (R287). -/
structure DataInv (s : State) : Prop where
  tx_valid : s.canTxSlot.valid = true
  rx_valid : s.canRxSlot.valid = true
  brp_range : s.btBrp.toNat ≤ 98302
  err_code : s.lastErr ∈ wireCodes
  halted_fault : s.halted = true → s.fault = true

/-- A message the data channel may carry to the host: a relayed record of R30 or a report of a code
of the table, at some tick (R98, R102, R103, R113). -/
def goodDataMsg (c : Params) (m : Buf 21) : Prop :=
  (∃ f ts, f.valid = true ∧ m = canMsg c f ts) ∨ (∃ code ts, code ∈ wireCodes ∧ m = errMsg c code ts)

/-- A message the command channel may carry to the host: its markers, and a status byte of 0 or 255
(R96, R215). -/
def goodResponse (c : Params) (m : Buf 16) : Prop :=
  m[0] = c.cmdSof ∧ m[15] = c.cmdEof ∧ (m[3] = 0x00#8 ∨ m[3] = 0xFF#8)

/-- Every message emitted so far is one the core may emit. -/
structure OutputInv (s : State) : Prop where
  cmd_good : ∀ m ∈ s.outCmd, goodResponse s.params m
  data_good : ∀ m ∈ s.outData, goodDataMsg s.params m

/-- The request of flag `f` is set and its handler has still to run: it is not in the gap between
`D_HANDLE` and `D_CLEAR` of its own slot (R147). -/
def pending (s : State) (f : Flag) : Prop :=
  hasFlag s.params s.flags f = true ∧ ¬(s.dph = .clear ∧ prio s.dslot = f)

/-- The command code that raises a command flag (R21, R92). -/
def codeOf : Flag → Option Byte
  | .version => some 12#8
  | .open_ => some 2#8
  | .close => some 3#8
  | _ => none

/-- The command channel's protocol: while it is armed no command is owed a response, and a command
that is owed one is the command held in `CMD_RX` (R190, R215, R264). It holds on runs without
`USB_INIT` between an acceptance and its response (R326). -/
structure CommandInv (s : State) : Prop where
  armed_idle : s.cmdArmed = true → ∀ f code, codeOf f = some code → ¬pending s f
  owed_code : ∀ f code, codeOf f = some code → pending s f → s.cmdRx[2] = code

/-- The command channel is dead: it is not armed and nothing is left that would arm it (R211, R216,
R334). -/
def cmdDead (s : State) : Prop :=
  s.cmdArmed = false ∧ ∀ f code, codeOf f = some code → ¬pending s f

/-! ### Runs of the drain -/

/-- The state with the one bit of a flag cleared. -/
def State.clearFlag (s : State) (f : Flag) : State :=
  { s with flags := clearBits (flagBit s.params f) s.flags }

/-- What a drain slot does as a whole when no other step falls into it: if its flag is set, its
handler runs and its bit is cleared; else nothing (R142). -/
def serviceSlot (s : State) (k : Fin 6) : State :=
  if hasFlag s.params s.flags (prio k) then (handlerBody k s).clearFlag (prio k) else s

/-- A quiescent state (R264). -/
def quiescent (s : State) : Prop :=
  s.flags = 0 ∧ s.dph = .sample ∧ s.canTxBusy = false

/-- The state with the contents of `DATA_RX` forgotten. -/
def forgetDataRx (s : State) : State :=
  { s with dataRx := zeros 16 }

/-- An outcome with the contents of `DATA_RX` forgotten. -/
def forgetOutcome : Host.Outcome State Fault Refusal → Host.Outcome State Fault Refusal
  | .next s => .next (forgetDataRx s)
  | .fault r => .fault r
  | .refused r => .refused r

end Sys2Proof.Machine
end

