-- ==== Sys2Proof/Certificates/Slice0/Obligations.lean ====
section
/-! DEFINITION. The statements for the provers. Each says what an operation or the machine does in
the spec's own terms; the right sides are written out and do not call the meaning they describe. -/

section

open Sys2Proof Sys2Proof.Machine

/-! ### The flag scheduler -/

/-- R140: `RAISE(f)` ors `1 << f` into `FLAGS` and changes nothing else; so the one bit `f` is set and
every other bit kept, a flag already set leaves `FLAGS` as it was, and an index that is none of the
six is refused by the decoder. -/
def Obligations.RaiseSetsExactlyOneBit : Prop :=
  (∀ (s : State) (f : Flag), s.halted = false →
    exec (.raise f) s
      = .next { s with flags := s.flags ||| (1#s.params.flagW <<< (s.params.flagIx f).val) })
  ∧ (∀ (s t : State) (f : Flag), s.halted = false → exec (.raise f) s = .next t →
      (∀ i : Nat, t.flags.getLsbD i
          = (s.flags.getLsbD i || decide (i = (s.params.flagIx f).val)))
        ∧ (s.flags.getLsbD (s.params.flagIx f).val = true → t = s))
  ∧ ∀ (c : Params) (ix : Nat), (∀ f : Flag, (c.flagIx f).val ≠ ix) →
      decode c (.raise ix) = .error .noSuchFlag

/-- The spec's own decision D5 (40_scheduler.md section 2): in phase SAMPLE, `D_SAMPLE` looks at the
one bit of its slot's flag. If it is set, the snapshot is that bit and the phase HANDLE; if not, the
next slot, modulo 6, is to be sampled. `FLAGS` and all else stay. -/
def Obligations.SampleSnapshotsTheSlotsFlag : Prop :=
  ∀ s : State, s.halted = false → s.dph = .sample →
    exec .dSample s = .next
      (if s.flags.getLsbD (s.params.flagIx (prio s.dslot)).val then
        { s with
          dsnap := 1#s.params.flagW <<< (s.params.flagIx (prio s.dslot)).val
          dph := .handle }
      else
        { s with
          dslot := ⟨(s.dslot.val + 1) % 6, Nat.mod_lt _ (by decide)⟩
          dph := .sample
          dsnap := 0 })

/-- The spec's own decision D6 (40_scheduler.md section 2): in phase HANDLE, `D_HANDLE` does what the
handler of its slot does, slots 0 to 5 being H_VERSION, H_OPEN, H_CLOSE, H_TRANSMIT, H_ERROR and
H_RXRDY, and then the phase is CLEAR; it never stops and writes no flag. -/
def Obligations.HandleRunsTheSlotsHandler : Prop :=
  ∀ s : State, s.halted = false → s.dph = .handle →
    ∃ t : State,
      exec
          (match s.dslot with
            | 0 => Instr.hVersion
            | 1 => Instr.hOpen
            | 2 => Instr.hClose
            | 3 => Instr.hTransmit
            | 4 => Instr.hError
            | 5 => Instr.hRxrdy) s = .next t
        ∧ exec .dHandle s = .next { t with dph := .clear }
        ∧ t.params = s.params ∧ t.flags.toNat = s.flags.toNat ∧ t.dslot = s.dslot
        ∧ t.dsnap.toNat = s.dsnap.toNat ∧ t.dph = s.dph

/-- R145: in phase CLEAR, `D_CLEAR` and-nots the snapshot out of `FLAGS`, forgets the snapshot and
goes to the SAMPLE phase of the next slot, modulo 6; nothing else changes, and every flag bit outside
the snapshot is kept. -/
def Obligations.ClearClearsExactlyTheSnapshot : Prop :=
  ∀ s : State, s.halted = false → s.dph = .clear →
    ∃ t : State, exec .dClear s = .next t
      ∧ t = { s with
          flags := s.flags &&& ~~~s.dsnap
          dsnap := 0
          dslot := ⟨(s.dslot.val + 1) % 6, Nat.mod_lt _ (by decide)⟩
          dph := .sample }
      ∧ ∀ i : Nat, t.flags.getLsbD i = (s.flags.getLsbD i && !s.dsnap.getLsbD i)

/-! ### The bit-timing translator -/

/-- R170: `BT_DECODE` stores `(p - 1) mod 256` masked to the field's width for ts1, ts2 and sjw, the
big-endian prescaler times 3 over 2 rounded down, and the three mode bits; nothing else changes. -/
def Obligations.DecodeStoresTheDescriptor : Prop :=
  ∀ (s : State) (p : Buf 10), s.halted = false →
    ∃ t : State, exec (.btDecode p) s = .next t
      ∧ t = { s with
          btTs1 := t.btTs1, btTs2 := t.btTs2, btSjw := t.btSjw, btBrp := t.btBrp
          cmS := t.cmS, cmL := t.cmL, cmO := t.cmO }
      ∧ t.btTs1.toNat = (p[0].toNat + 255) % 256 % 16
      ∧ t.btTs2.toNat = (p[1].toNat + 255) % 256 % 8
      ∧ t.btSjw.toNat = (p[2].toNat + 255) % 256 % 4
      ∧ t.btBrp.toNat = (p[3].toNat * 256 + p[4].toNat) * 3 / 2
      ∧ t.cmS = decide (p[8] &&& s.params.cmSilent ≠ 0#8)
      ∧ t.cmL = decide (p[8] &&& s.params.cmLoopback ≠ 0#8)
      ∧ t.cmO = decide (p[8] &&& s.params.cmOneshot ≠ 0#8)

/-- R174: `BT_COMPUTE` returns the three stored fields, zero-extended to 32 bits and shifted left by
their shift parameters, and the stored prescaler zero-extended. It writes no state of the core; the
model hands the four words out in its own field `result` (log 9). -/
def Obligations.ComputeShiftsTheDescriptor : Prop :=
  ∀ s : State, s.halted = false →
    ∃ r : RegFields,
      r.sjwF = s.btSjw.setWidth 32 <<< s.params.sjwShift
        ∧ r.ts1F = s.btTs1.setWidth 32 <<< s.params.ts1Shift
        ∧ r.ts2F = s.btTs2.setWidth 32 <<< s.params.ts2Shift
        ∧ r.presc = s.btBrp.setWidth 32
        ∧ exec .btCompute s = .next { s with result := .fields r }

/-- The round trip of the translator, which 41_bit_timing.md section 3 derives: after decoding any
payload, computing gives words that shift back to the stored fields; the wire prescaler is recovered
as `ceil(2 * PRESC / 3)`; and every in-range wire byte is its stored field plus one. -/
def Obligations.TranslatorRoundTrip : Prop :=
  ∀ (s : State) (p : Buf 10), s.params.wf = true → s.halted = false →
    ∃ (t : State) (r : RegFields),
      exec (.btDecode p) s = .next t
        ∧ exec .btCompute t = .next { t with result := .fields r }
        ∧ r.sjwF.toNat / 2 ^ s.params.sjwShift = t.btSjw.toNat
        ∧ r.ts1F.toNat / 2 ^ s.params.ts1Shift = t.btTs1.toNat
        ∧ r.ts2F.toNat / 2 ^ s.params.ts2Shift = t.btTs2.toNat
        ∧ p[3].toNat * 256 + p[4].toNat = (2 * r.presc.toNat + 2) / 3
        ∧ (1 ≤ p[0].toNat → p[0].toNat ≤ 16 → t.btTs1.toNat + 1 = p[0].toNat)
        ∧ (1 ≤ p[1].toNat → p[1].toNat ≤ 8 → t.btTs2.toNat + 1 = p[1].toNat)
        ∧ (1 ≤ p[2].toNat → p[2].toNat ≤ 4 → t.btSjw.toNat + 1 = p[2].toNat)

/-! ### The command channel -/

/-- R195: a version query on an armed channel is stored, disarms the channel, sets the response
payload to 00 10 00 10 and six zero bytes, and raises VERSION; nothing else changes. -/
def Obligations.VersionQueryIsAccepted : Prop :=
  ∀ (s : State) (a : CmdArgs), s.halted = false → s.cmdArmed = true →
    exec (.getSoftwHardwVer a) s = .next
      { s with
        cmdArmed := false
        cmdRx := cmdMsg s.params 12#8 a
        cmdTx := #v[s.cmdTx[0], s.cmdTx[1], s.cmdTx[2], s.cmdTx[3], s.cmdTx[4],
          0x00#8, 0x10#8, 0x00#8, 0x10#8, 0#8, 0#8, 0#8, 0#8, 0#8, 0#8, s.cmdTx[15]]
        flags := s.flags ||| (1#s.params.flagW <<< (s.params.flagIx .version).val) }

/-- R196: an OPEN on an armed channel is stored, disarms the channel, zeroes the response payload,
decodes the timing and mode of its payload (R170) and raises OPEN; nothing else changes: in
particular the collaborator is not called. -/
def Obligations.OpenIsAccepted : Prop :=
  ∀ (s : State) (a : CmdArgs), s.halted = false → s.cmdArmed = true →
    exec (.cmdOpen a) s = .next
      { s with
        cmdArmed := false
        cmdRx := cmdMsg s.params 2#8 a
        cmdTx := #v[s.cmdTx[0], s.cmdTx[1], s.cmdTx[2], s.cmdTx[3], s.cmdTx[4],
          0#8, 0#8, 0#8, 0#8, 0#8, 0#8, 0#8, 0#8, 0#8, 0#8, s.cmdTx[15]]
        btTs1 := BitVec.ofNat 4 ((a.payload[0].toNat + 255) % 256)
        btTs2 := BitVec.ofNat 3 ((a.payload[1].toNat + 255) % 256)
        btSjw := BitVec.ofNat 2 ((a.payload[2].toNat + 255) % 256)
        btBrp := BitVec.ofNat 17 ((a.payload[3].toNat * 256 + a.payload[4].toNat) * 3 / 2)
        cmS := decide (a.payload[8] &&& s.params.cmSilent ≠ 0#8)
        cmL := decide (a.payload[8] &&& s.params.cmLoopback ≠ 0#8)
        cmO := decide (a.payload[8] &&& s.params.cmOneshot ≠ 0#8)
        flags := s.flags ||| (1#s.params.flagW <<< (s.params.flagIx .open_).val) }

/-- R197: a CLOSE on an armed channel is stored, disarms the channel, zeroes the response payload and
raises CLOSE; nothing else changes. -/
def Obligations.CloseIsAccepted : Prop :=
  ∀ (s : State) (a : CmdArgs), s.halted = false → s.cmdArmed = true →
    exec (.cmdClose a) s = .next
      { s with
        cmdArmed := false
        cmdRx := cmdMsg s.params 3#8 a
        cmdTx := #v[s.cmdTx[0], s.cmdTx[1], s.cmdTx[2], s.cmdTx[3], s.cmdTx[4],
          0#8, 0#8, 0#8, 0#8, 0#8, 0#8, 0#8, 0#8, 0#8, 0#8, s.cmdTx[15]]
        flags := s.flags ||| (1#s.params.flagW <<< (s.params.flagIx .close).val) }

/-- The nine codes the source marks unused and the codes it does not list (42_command_channel.md
section 2 derives their effect; decision D36 reads them as unrecognized): on an armed channel the
message is stored, the channel disarmed and `FAULT` set; nothing else changes, the core is not reset,
no flag is raised and no response is sent. -/
def Obligations.UnusedCommandsAreUnrecognized : Prop :=
  ∀ (s : State) (a : CmdArgs) (i : Instr) (code : Byte), s.halted = false → s.cmdArmed = true →
    (i, code) ∈ [(.cmdReset a, 1#8), (.setSpeed a, 4#8), (.setMaskFilter a, 5#8),
      (.getStatus a, 6#8), (.getStatistics a, 7#8), (.getSerial a, 8#8), (.getSoftwVer a, 9#8),
      (.getHardwVer a, 10#8), (.resetTimestamp a, 11#8), (.cmdUnrecognized code a, code)] →
    exec i s = .next
      { s with cmdArmed := false, cmdRx := cmdMsg s.params code a, fault := true }

/-- The dispatch of 42_command_channel.md section 1: on an armed channel the delivery of any 16 bytes
with both markers is dispatched on byte 2: code 12, 2 and 3 have the effect of their own rows, on the
message's own bytes. For every other code the spec's own decision D36 is followed: it stores the
message, sets `FAULT`, leaves the channel un-armed, and does nothing else. -/
def Obligations.CommandsAreDispatchedOnTheirCode : Prop :=
  ∀ (s : State) (b : Buf 16), s.halted = false → s.cmdArmed = true →
    b[0] = s.params.cmdSof → b[15] = s.params.cmdEof →
    ∃ (t : State) (a : CmdArgs),
      exec (.usbCmdOut b.toList) s = .next t
        ∧ t.cmdRx = b ∧ t.cmdArmed = false
        ∧ cmdMsg s.params b[2] a = b
        ∧ (b[2] = 12#8 → exec (.getSoftwHardwVer a) s = .next t)
        ∧ (b[2] = 2#8 → exec (.cmdOpen a) s = .next t)
        ∧ (b[2] = 3#8 → exec (.cmdClose a) s = .next t)
        ∧ (b[2] ≠ 12#8 → b[2] ≠ 2#8 → b[2] ≠ 3#8 →
            t = { s with cmdArmed := false, cmdRx := b, fault := true })

/-- The spec's own decisions D22 and D30 (60_exceptions.md section 1): on an armed channel a packet
whose length is not 16 or whose first or last byte is not its marker disarms the channel, sets `FAULT`
and leaves `CMD_RX` at some bytes no rule fixes (the model's free value, log 7); nothing else of the
core changes. -/
def Obligations.CommandFramingError : Prop :=
  ∀ (s : State) (pkt : Packet), s.halted = false → s.cmdArmed = true →
    (pkt.length ≠ 16 ∨ pkt[0]? ≠ some s.params.cmdSof ∨ pkt[15]? ≠ some s.params.cmdEof) →
    ∃ junk : Buf 16,
      exec (.usbCmdOut pkt) s = .next
        { s with cmdArmed := false, fault := true, cmdRx := junk, draws := s.draws + 1 }

/-- R210: `SEND_RESPONSE(ec)` builds marker, echoed channel, echoed command, 0 or 255, echoed opt2,
the payload that was prepared, marker; keeps it in `CMD_TX`, appends a copy to `OUT_CMD` and re-arms
the channel; nothing else changes. -/
def Obligations.SendResponseEchoesAndRearms : Prop :=
  ∀ (s : State) (ec : Byte), s.halted = false →
    ∃ r : Buf 16,
      r = #v[s.params.cmdSof, s.cmdRx[1], s.cmdRx[2], if ec = 0#8 then 0x00#8 else 0xFF#8,
          s.cmdRx[4], s.cmdTx[5], s.cmdTx[6], s.cmdTx[7], s.cmdTx[8], s.cmdTx[9], s.cmdTx[10],
          s.cmdTx[11], s.cmdTx[12], s.cmdTx[13], s.cmdTx[14], s.params.cmdEof]
        ∧ exec (.sendResponse ec) s
          = .next { s with cmdTx := r, outCmd := s.outCmd ++ [r], cmdArmed := true }

/-- R212: `H_VERSION` is `SEND_RESPONSE(0)`: the success response, and nothing else. -/
def Obligations.VersionHandlerRespondsSuccess : Prop :=
  ∀ s : State, s.halted = false →
    exec .hVersion s = exec (.sendResponse 0#8) s
      ∧ exec .hVersion s = .next
        { s with
          cmdTx := answer s 0x00#8
          outCmd := s.outCmd ++ [answer s 0x00#8]
          cmdArmed := true }

/-- R213: `H_OPEN` calls the collaborator's open with the four words of `BT_COMPUTE` and the three
mode latches, sets `CAN_OPEN_ST` exactly when the status is 0, and responds 0 or 255; nothing else
changes. The status is the level on can_status, any byte. -/
def Obligations.OpenHandlerOpensAndResponds : Prop :=
  ∀ s : State, s.halted = false →
    ∃ (r : Buf 16) (a : OpenArgs),
      r = answer s (if s.canStatus = 0#8 then 0x00#8 else 0xFF#8)
        ∧ a.sjwF = s.btSjw.setWidth 32 <<< s.params.sjwShift
        ∧ a.ts1F = s.btTs1.setWidth 32 <<< s.params.ts1Shift
        ∧ a.ts2F = s.btTs2.setWidth 32 <<< s.params.ts2Shift
        ∧ a.presc = s.btBrp.setWidth 32
        ∧ a.silent = s.cmS ∧ a.loopback = s.cmL ∧ a.oneshot = s.cmO
        ∧ exec .hOpen s = .next
          { s with
            canCalls := s.canCalls ++ [.open_ a]
            canOpenSt := decide (s.canStatus = 0#8)
            cmdTx := r
            outCmd := s.outCmd ++ [r]
            cmdArmed := true }

/-- R214: `H_CLOSE` calls the collaborator's close, clears `CAN_OPEN_ST` whatever the status, and
responds 0 or 255; when `CAN_OPEN_ST` was already 0 the status is 0 (the case R252 describes);
nothing else changes. -/
def Obligations.CloseHandlerClosesAndResponds : Prop :=
  ∀ s : State, s.halted = false →
    ∃ r : Buf 16,
      r = answer s (if s.canOpenSt = false ∨ s.canStatus = 0#8 then 0x00#8 else 0xFF#8)
        ∧ exec .hClose s = .next
          { s with
            canCalls := s.canCalls ++ [.close]
            canOpenSt := false
            cmdTx := r
            outCmd := s.outCmd ++ [r]
            cmdArmed := true }

/-! ### The data channel -/

/-- The spec's own decisions D18 to D20 (43_data_channel.md section 1): a data message on an armed
channel is stored, disarms the channel, fills `CAN_TX_SLOT` (extended and remote bits by their masks,
29 or 11 identifier bits, dlc clamped to 8, bytes from the dlc on 0) and raises TRANSMIT; nothing else
changes. -/
def Obligations.DataMessageFillsTheSlot : Prop :=
  ∀ (s : State) (fl : Byte) (idw : Word32) (dlc : Byte) (data : Buf 8),
    s.halted = false → s.dataArmed = true →
    exec (.dataIn fl idw dlc data) s = .next
      { s with
        dataArmed := false
        dataRx := #v[s.params.dataSof, fl, idw.extractLsb' 24 8, idw.extractLsb' 16 8,
          idw.extractLsb' 8 8, idw.extractLsb' 0 8, dlc, data[0], data[1], data[2], data[3],
          data[4], data[5], data[6], data[7], s.params.dataEof]
        canTxSlot :=
          { id := BitVec.ofNat 29
              (if fl &&& s.params.fbExt = 0#8 then idw.toNat % 2 ^ 11 else idw.toNat % 2 ^ 29)
            ext := decide (fl &&& s.params.fbExt ≠ 0#8)
            rtr := decide (fl &&& s.params.fbRtr ≠ 0#8)
            dlc := BitVec.ofNat 4 (if dlc.toNat ≤ 8 then dlc.toNat else 8)
            data := Vector.ofFn fun i : Fin 8 => if i.val < dlc.toNat then data[i.val] else 0#8 }
        flags := s.flags ||| (1#s.params.flagW <<< (s.params.flagIx .transmit).val) }

/-- 43_data_channel.md section 1, with the spec's decisions D22 and D30 for the error: on an armed
channel any 16 bytes with both data markers have the effect of the row DATA_IN on the message's own
fields; any other packet disarms the channel, sets `FAULT` and leaves `DATA_RX` at some bytes no rule
fixes (the model's free value, log 7), and nothing else of the core changes. -/
def Obligations.DataDeliveryParsesOrFails : Prop :=
  (∀ (s : State) (b : Buf 16), s.halted = false → s.dataArmed = true →
    b[0] = s.params.dataSof → b[15] = s.params.dataEof →
    ∃ (t : State) (idw : Word32) (data : Buf 8),
      exec (.usbDataOut b.toList) s = .next t
        ∧ exec (.dataIn b[1] idw b[6] data) s = .next t
        ∧ t.dataRx = b ∧ t.dataArmed = false
        ∧ idw.toNat = b[2].toNat * 2 ^ 24 + b[3].toNat * 2 ^ 16 + b[4].toNat * 2 ^ 8 + b[5].toNat
        ∧ data = #v[b[7], b[8], b[9], b[10], b[11], b[12], b[13], b[14]])
  ∧ ∀ (s : State) (pkt : Packet), s.halted = false → s.dataArmed = true →
    (pkt.length ≠ 16 ∨ pkt[0]? ≠ some s.params.dataSof ∨ pkt[15]? ≠ some s.params.dataEof) →
    ∃ junk : Buf 16,
      exec (.usbDataOut pkt) s = .next
        { s with dataArmed := false, fault := true, dataRx := junk, draws := s.draws + 1 }

/-- The spec's own decision D31 (43_data_channel.md section 1): `H_TRANSMIT` hands a copy of
`CAN_TX_SLOT` to the collaborator and sets `CAN_TX_BUSY`; nothing else changes: the data channel is
not re-armed. -/
def Obligations.TransmitHandlerStartsTheSlot : Prop :=
  ∀ s : State, s.halted = false →
    exec .hTransmit s = .next
      { s with canCalls := s.canCalls ++ [.txStart s.canTxSlot], canTxBusy := true }

/-- The spec's own decisions D16, D17 and D20 (43_data_channel.md section 2): `H_RXRDY` builds the
21-byte CAN message of `CAN_RX_SLOT`, and `H_ERROR` the 21-byte error message of `LAST_ERR`, at the
present tick; each keeps it in `DATA_TX` and appends a copy to `OUT_DATA`; nothing else changes, the
arm latches included. `canMsg` and `errMsg` write the 21 bytes out. -/
def Obligations.EmittersBuildTheirMessage : Prop :=
  ∀ s : State, s.halted = false →
    exec .hRxrdy s = .next
        { s with
          dataTx := canMsg s.params s.canRxSlot s.tickMs
          outData := s.outData ++ [canMsg s.params s.canRxSlot s.tickMs] }
      ∧ exec .hError s = .next
        { s with
          dataTx := errMsg s.params s.lastErr s.tickMs
          outData := s.outData ++ [errMsg s.params s.lastErr s.tickMs] }

/-- The model's reading of the rows CMD_RESPONSE, DATA_OUT_CAN and DATA_OUT_ERR as instructions
(log 16, DEDUCED from the formats of 30_encoding.md sections 3 and 4 and the operations that emit
them): the message crosses its out-port, that is, it is kept in `CMD_TX` or `DATA_TX` and appended to
`OUT_CMD` or `OUT_DATA`, and a response re-arms the command channel; nothing else changes. -/
def Obligations.MessagesCrossTheirPorts : Prop :=
  ∀ s : State, s.halted = false →
    (∀ (command : Byte) (a : CmdArgs),
      exec (.cmdResponse command a) s = .next
        { s with
          cmdTx := cmdMsg s.params command a
          outCmd := s.outCmd ++ [cmdMsg s.params command a]
          cmdArmed := true })
    ∧ (∀ (fl : Byte) (idw : Word32) (dlc : Byte) (data : Buf 8) (ts : Word32),
      exec (.dataOutCan fl idw dlc data ts) s = .next
        { s with
          dataTx := dout21 s.params 0#8 fl idw dlc data ts
          outData := s.outData ++ [dout21 s.params 0#8 fl idw dlc data ts] })
    ∧ ∀ (code : Byte) (ts : Word32),
      exec (.dataOutErr code ts) s = .next
        { s with
          dataTx := errMsg s.params code ts
          outData := s.outData ++ [errMsg s.params code ts] }

/-- R233: `ERR_MAP(E)` is 0x04 if bus-off is present, else 0x03 if error-passive is, else 0x02 if
error-warning is, else the byte of the receive-class error. It writes no state of the core; the model
hands the byte out in its own field `result` (log 9). -/
def Obligations.ErrorMapByPriority : Prop :=
  ∀ (s : State) (e : ErrRec), s.halted = false →
    ∃ code : Byte, exec (.errMap e) s = .next { s with result := .code code }
      ∧ (e.bof = true → code = 0x04#8)
      ∧ (e.bof = false → e.epv = true → code = 0x03#8)
      ∧ (e.bof = false → e.epv = false → e.ewg = true → code = 0x02#8)
      ∧ (e.bof = false → e.epv = false → e.ewg = false →
          (e.rxc, code) ∈ [(RxClass.none_, 0x00#8), (.overrun, 0x01#8), (.stuff, 0x20#8),
            (.form, 0x21#8), (.ack, 0x23#8), (.bitrec, 0x24#8), (.bitdom, 0x25#8),
            (.crc, 0x27#8), (.unknown, 0xFF#8)])

/-! ### The collaborator interface -/

/-- R257: `CAN_ERR(E)` puts `ERR_MAP(E)` in `LAST_ERR`, replacing what was there, and raises ERROR
whatever the code is; nothing else changes. -/
def Obligations.CanErrorStoresTheCode : Prop :=
  ∀ (s : State) (e : ErrRec), s.halted = false →
    ∃ code : Byte,
      exec (.errMap e) s = .next { s with result := .code code }
        ∧ exec (.canErr e) s = .next
          { s with
            lastErr := code
            flags := s.flags ||| (1#s.params.flagW <<< (s.params.flagIx .error).val) }

/-- R258: `CAN_TX_DONE` clears `CAN_TX_BUSY` and arms the data channel, whether or not a transmit was
in progress; nothing else changes. -/
def Obligations.TransmitCompletionRearms : Prop :=
  ∀ s : State, s.halted = false →
    exec .canTxDone s = .next { s with canTxBusy := false, dataArmed := true }

/-- R256: `CAN_RX_DONE` with a frame of the interface (dlc at most 8, a standard identifier below
2^11) stores it with the bytes from the dlc on as 0, records the re-arm and raises RXRDY, overwriting
an older frame; nothing else changes. A frame with a dlc above 8 is refused. -/
def Obligations.ReceptionFillsTheSlot : Prop :=
  (∀ (s : State) (f : Frame), s.halted = false →
    f.dlc.toNat ≤ 8 → (f.ext = false → f.id.toNat < 2 ^ 11) →
    exec (.canRxDone f) s = .next
      { s with
        canRxSlot :=
          { f with
            data := Vector.ofFn fun i : Fin 8 => if i.val < f.dlc.toNat then f.data[i.val] else 0#8 }
        canCalls := s.canCalls ++ [.rxRearm]
        flags := s.flags ||| (1#s.params.flagW <<< (s.params.flagIx .rxrdy).val) })
  ∧ ∀ (s : State) (f : Frame), 8 < f.dlc.toNat →
      exec (.canRxDone f) s = .refused .frameOutsideInterface

/-- What is outside the interface is refused by name (93_implementation_defined.md U14 and the
packet range of 10_state.md section 7; logs 14 and 15): `exec` and the decoder on a standard frame
whose identifier needs more than 11 bits, the decoder on a dlc above 8 and on a packet longer than
`USB_MAXPKT`, on either channel. -/
def Obligations.OutsideTheInterfaceIsRefused : Prop :=
  (∀ (s : State) (f : Frame), f.ext = false → 2 ^ 11 ≤ f.id.toNat →
    exec (.canRxDone f) s = .refused .frameOutsideInterface)
  ∧ (∀ (c : Params) (f : Frame),
      (8 < f.dlc.toNat ∨ (f.ext = false ∧ 2 ^ 11 ≤ f.id.toNat)) →
      decode c (.event (.canrx f)) = .error .frameOutsideInterface)
  ∧ ∀ (c : Params) (pkt : Packet), c.usbMaxpkt < pkt.length →
      decode c (.event (.cmd pkt)) = .error .packetTooLong
        ∧ decode c (.event (.data pkt)) = .error .packetTooLong

/-- The spec's own decisions D25 and D26 (44_can_interface.md section 3): `USB_INIT` arms both
channels and `USB_DEINIT` disarms both, whatever the state; nothing else changes. -/
def Obligations.InitArmsAndDeinitDisarms : Prop :=
  ∀ s : State, s.halted = false →
    exec .usbInit s = .next { s with cmdArmed := true, dataArmed := true }
      ∧ exec .usbDeinit s = .next { s with cmdArmed := false, dataArmed := false }

/-- The spec's own decision D24 (44_can_interface.md section 1), on the two calls alone: `CAN_OPEN`
and `CAN_CLOSE` are recorded in `CAN_CALLS`; `CAN_OPEN_ST` becomes 1 exactly on a status 0 of open, and
0 on every close; a close while closed has status 0. The model hands the status out in its own field
`result` (log 9), and sets `CAN_OPEN_ST` in the call itself (log 24); nothing else changes. -/
def Obligations.CallsAreRecorded : Prop :=
  ∀ s : State, s.halted = false →
    (∀ a : OpenArgs, exec (.canOpen a) s = .next
      { s with
        canCalls := s.canCalls ++ [.open_ a]
        canOpenSt := decide (s.canStatus = 0#8)
        result := .status s.canStatus })
    ∧ exec .canClose s = .next
      { s with
        canCalls := s.canCalls ++ [.close]
        canOpenSt := false
        result := .status (if s.canOpenSt then s.canStatus else 0#8) }

/-- The effect in the core of a transmit start (44_can_interface.md section 1):
`CAN_TX_START(frame)` is recorded in `CAN_CALLS` and sets `CAN_TX_BUSY`; it has no result, and
nothing else changes. -/
def Obligations.TransmitStartIsRecorded : Prop :=
  ∀ (s : State) (f : Frame), s.halted = false →
    exec (.canTxStart f) s = .next
      { s with canCalls := s.canCalls ++ [.txStart f], canTxBusy := true }

/-! ### Exception, reset, enabling -/

/-- The spec's own decision D37 (60_exceptions.md section 1): a processor exception sets `FAULT` and
`HALTED` in every state; everything else, the drain's position included, keeps its value. -/
def Obligations.ProcessorExceptionHalts : Prop :=
  ∀ s : State, exec .procException s = .next { s with fault := true, halted := true }

/-- The spec's own decision D25 (10_state.md section 9, 70_reset_and_hazards.md section 1): the reset
event, in every state, halted or not, puts every register at 0, the phase at SAMPLE, and empties the
three output sequences. What is not the core's stays: the build parameters, the levels of the two
inputs, and the model's own script and draw counter (log 10). -/
def Obligations.ResetEventRestoresEverything : Prop :=
  ∀ s : State, exec .resetEvent s = .next
    { params := s.params, tickMs := s.tickMs, canStatus := s.canStatus
      script := s.script, draws := s.draws, result := .none_
      flags := 0, dslot := 0, dph := .sample, dsnap := 0
      btSjw := 0, btTs1 := 0, btTs2 := 0, btBrp := 0, cmS := false, cmL := false, cmO := false
      cmdRx := Vector.replicate 16 0, cmdTx := Vector.replicate 16 0
      dataRx := Vector.replicate 16 0, dataTx := Vector.replicate 21 0
      canTxSlot := ⟨0, false, false, 0, Vector.replicate 8 0⟩
      canRxSlot := ⟨0, false, false, 0, Vector.replicate 8 0⟩
      lastErr := 0, cmdArmed := false, dataArmed := false, canOpenSt := false, canTxBusy := false
      fault := false, halted := false, outCmd := [], outData := [], canCalls := [] }

/-- A step that is not enabled does not exist (decisions D27 and D37; 10_state.md section 5,
70_reset_and_hazards.md section 3), which the model reads as: it changes nothing (log 3). So it is for
every instruction but the processor exception and reset in a halted core (the frame of a reception
being inside the interface), for every delivery on a channel that is not armed, and for every drain
phase that is not the present one. -/
def Obligations.DisabledStepsChangeNothing : Prop :=
  (∀ (s : State) (i : Instr), s.halted = true → i ≠ .procException → i ≠ .resetEvent →
    (∀ f : Frame, i = .canRxDone f → f.inInterface = true) → exec i s = .next s)
  ∧ (∀ (s : State) (a : CmdArgs) (code : Byte) (pkt : Packet), s.cmdArmed = false →
      exec (cmdRow code a) s = .next s ∧ exec (.cmdUnrecognized code a) s = .next s
        ∧ exec (.usbCmdOut pkt) s = .next s)
  ∧ (∀ (s : State) (fl : Byte) (idw : Word32) (dlc : Byte) (data : Buf 8) (pkt : Packet),
      s.dataArmed = false →
      exec (.dataIn fl idw dlc data) s = .next s ∧ exec (.usbDataOut pkt) s = .next s)
  ∧ ∀ s : State, (s.dph ≠ .sample → exec .dSample s = .next s)
      ∧ (s.dph ≠ .handle → exec .dHandle s = .next s)
      ∧ (s.dph ≠ .clear → exec .dClear s = .next s)

/-! ### Steps and decoding -/

/-- The model's step (logs 1, 2, 4): with an event at the head of the script that decodes to a
well-formed instruction, `step` is `exec` of that instruction in the state with the event's levels on
tick_ms and can_status and the event taken off the script; with a signal that is no row, `step` refuses
by the decoder's name for it; with an empty script, `step` is `MAIN`'s step of the present phase. -/
def Obligations.StepRunsTheDecodedInstruction : Prop :=
  (∀ (s : State) (inp : Input) (rest : List Input) (i : Instr), s.script = inp :: rest →
    decode s.params (.event inp.event) = .ok i → i.wf s.params = true →
    step s = exec i
      { s with tickMs := inp.tickMs, canStatus := inp.canStatus, script := rest })
  ∧ (∀ (s : State) (inp : Input) (rest : List Input) (e : DecodeError), s.script = inp :: rest →
      decode s.params (.event inp.event) = .error e → step s = .refused (.signal e))
  ∧ ∀ s : State, s.script = [] →
      step s = exec (match s.dph with
        | .sample => .dSample
        | .handle => .dHandle
        | .clear => .dClear) s

/-- Packets written out byte by byte from 30_encoding.md (R91, R97) and the scenarios of
95_test_vectors.md decode to the instructions they stand for, with the default parameters. -/
def Obligations.WrittenWordsDecode : Prop :=
  decode .default (.event (.cmd [0x11#8, 0x00#8, 0x02#8, 0x00#8, 0x00#8, 0x06#8, 0x04#8, 0x02#8,
      0x00#8, 0x0A#8, 0x00#8, 0x00#8, 0x00#8, 0x00#8, 0x00#8, 0x22#8]))
    = .ok (.cmdOpen ⟨0#8, 0#8, 0#8, #v[6#8, 4#8, 2#8, 0#8, 10#8, 0#8, 0#8, 0#8, 0#8, 0#8]⟩)
  ∧ decode .default (.event (.cmd [0x11#8, 0x01#8, 0x06#8, 0x02#8, 0x03#8, 0x00#8, 0x00#8, 0x00#8,
      0x00#8, 0x00#8, 0x00#8, 0x00#8, 0x00#8, 0x00#8, 0x00#8, 0x22#8]))
    = .ok (.getStatus ⟨1#8, 2#8, 3#8, #v[0#8, 0#8, 0#8, 0#8, 0#8, 0#8, 0#8, 0#8, 0#8, 0#8]⟩)
  ∧ decode .default (.event (.data [0x55#8, 0x01#8, 0x1A#8, 0xBC#8, 0xDE#8, 0xF0#8, 0x08#8, 0x01#8,
      0x02#8, 0x03#8, 0x04#8, 0x05#8, 0x06#8, 0x07#8, 0x08#8, 0xAA#8]))
    = .ok (.dataIn 0x01#8 0x1ABCDEF0#32 8#8 #v[1#8, 2#8, 3#8, 4#8, 5#8, 6#8, 7#8, 8#8])
  ∧ decode .default (.usbDataIn [0x55#8, 0x00#8, 0x00#8, 0x00#8, 0x00#8, 0x01#8, 0x23#8, 0x02#8,
      0xAA#8, 0xBB#8, 0x00#8, 0x00#8, 0x00#8, 0x00#8, 0x00#8, 0x00#8, 0x00#8, 0x00#8, 0x12#8,
      0x34#8, 0xAA#8])
    = .ok (.dataOutCan 0#8 0x123#32 2#8 #v[0xAA#8, 0xBB#8, 0#8, 0#8, 0#8, 0#8, 0#8, 0#8] 0x1234#32)

/-- Every well-formed instruction, with every operand its encoding admits, is what the decoder reads
from its encoding, under any well-formed build parameters: no bit of an encoding is dropped. -/
def Obligations.DecodeOfEncodeIsTheInstruction : Prop :=
  ∀ (c : Params) (i : Instr), c.wf = true → i.wf c = true → decode c (encode c i) = .ok i

/-- Each signal has one meaning: whatever signal the decoder accepts, the instruction it answers is
well-formed and encodes to that very signal. So two signals never decode to one instruction. -/
def Obligations.EncodeOfDecodeIsTheSignal : Prop :=
  ∀ (c : Params) (sig : Signal) (i : Instr), decode c sig = .ok i →
    encode c i = sig ∧ i.wf c = true

/-! ### Invariants -/

/-- The values of 10_state.md section 9 (decision D25), with the default build parameters, meet the
four invariants of the model. -/
def Obligations.ResetMeetsTheInvariants : Prop :=
  SchedInv State.reset ∧ DataInv State.reset ∧ OutputInv State.reset ∧ CommandInv State.reset

/-- Every step keeps the scheduler's invariant (10_state.md section 10 (b) and (c), 40_scheduler.md
section 3): the reserved flag bits stay 0, and the snapshot is 0 in SAMPLE and otherwise exactly the
bit of the slot's flag, which is set in `FLAGS`. -/
def Obligations.StepKeepsTheSchedulerInvariant : Prop :=
  ∀ s t : State, SchedInv s → Machine.step s = .next t → SchedInv t

/-- Every step keeps the data invariant (10_state.md section 10 (a) and (d), 30_encoding.md section
5): both slots hold valid frame records, the prescaler is at most 98302, `LAST_ERR` is a byte of the
error-code table, and a halted core shows its fault. -/
def Obligations.StepKeepsTheDataInvariant : Prop :=
  ∀ s t : State, DataInv s → Machine.step s = .next t → DataInv t

/-- Every step keeps what the host may rely on (30_encoding.md sections 3 to 7): every response has its
markers and a status of 0 or 255, and every data message relays a valid frame or reports a code of the
error-code table. -/
def Obligations.StepKeepsTheOutputsGood : Prop :=
  ∀ s t : State, DataInv s → OutputInv s → Machine.step s = .next t → OutputInv t

/-- Every step but `USB_INIT` keeps the command channel's protocol (42_command_channel.md section 5,
with the proviso of 70_reset_and_hazards.md section 2): while the channel is armed no command waits
for its response, and a command that waits is the one in `CMD_RX`. -/
def Obligations.StepKeepsTheCommandProtocol : Prop :=
  ∀ s t : State, SchedInv s → CommandInv s →
    (∀ inp rest, s.script = inp :: rest → inp.event ≠ .init) →
    Machine.step s = .next t → CommandInv t

/-! ### Whole-machine rules -/

/-- The sticky latches and the fixed parameters (10_state.md sections 5 and 10 (e), 00_scope.md
section 4): no instruction but the reset event clears `FAULT` or `HALTED`, and none at all changes a
build parameter or takes back what the environment still has to deliver. -/
def Obligations.OnlyResetClearsFaultAndHalted : Prop :=
  ∀ (s t : State) (i : Instr), exec i s = .next t →
    t.params = s.params ∧ t.script = s.script
      ∧ (i ≠ .resetEvent → (s.fault = true → t.fault = true) ∧ (s.halted = true → t.halted = true))

/-- No lost update across flags (40_scheduler.md section 3, derived there): a flag that is set is
cleared by nothing but reset and the `D_CLEAR` of its own slot. -/
def Obligations.OnlyItsOwnClearClearsAFlag : Prop :=
  ∀ (s t : State) (i : Instr) (f : Flag), SchedInv s → exec i s = .next t →
    hasFlag s.params s.flags f = true → hasFlag t.params t.flags f = false →
    i = .resetEvent ∨ (i = .dClear ∧ s.dph = .clear ∧ prio s.dslot = f)

/-- R141: a flag that is not set is set only by the producer of that flag: VERSION, OPEN and CLOSE by
a command delivery, TRANSMIT by a data delivery, ERROR by `CAN_ERR`, RXRDY by `CAN_RX_DONE` (and by
`RAISE` itself, which occurs inside them); no drain step and no handler sets one. A flag that is set is
cleared by nothing but a step of the main loop (and by reset). -/
def Obligations.OnlyTheProducerRaisesAFlag : Prop :=
  ∀ (s t : State) (i : Instr) (f : Flag), s.params.wf = true → exec i s = .next t →
    (hasFlag s.params s.flags f = false → hasFlag t.params t.flags f = true →
      produces f i = true ∧ agentOf i ≠ some .main)
    ∧ (hasFlag s.params s.flags f = true → hasFlag t.params t.flags f = false →
      i = .resetEvent ∨ agentOf i = some .main)

/-- The same-flag gap (40_scheduler.md section 3 and 70_reset_and_hazards.md section 3, derived
there): a request raised after its handler ran and before the `D_CLEAR` of its slot is lost. For a
command of the code just answered this is the end of the channel: it is accepted, its flag is cleared,
no response is ever owed, and `FAULT` does not show it. -/
def Obligations.SameFlagGapLosesTheRequest : Prop :=
  (∀ (s t : State) (f : Flag), SchedInv s → s.halted = false → s.dph = .clear → prio s.dslot = f →
    exec (.raise f) s = .next t →
    t = s ∧ ∃ u : State, exec .dClear t = .next u ∧ hasFlag u.params u.flags f = false)
  ∧ ∀ (s : State) (f : Flag) (code : Byte) (a : CmdArgs), SchedInv s → CommandInv s →
      s.halted = false → s.cmdArmed = true → s.dph = .clear → prio s.dslot = f →
      codeOf f = some code →
      ∃ t u : State, exec (cmdRow code a) s = .next t ∧ exec .dClear t = .next u
        ∧ cmdDead u ∧ u.outCmd = s.outCmd ∧ u.fault = s.fault

/-- A dead command channel stays dead (42_command_channel.md section 5, 70_reset_and_hazards.md
section 3): when the channel is not armed and no command waits for its response, no run of any length
over any script without reset and `USB_INIT` sends a response or arms the channel again. -/
def Obligations.DeadCommandChannelStaysDead : Prop :=
  ∀ (n : Nat) (s t : State), SchedInv s → cmdDead s →
    (∀ inp ∈ s.script, inp.event ≠ .init ∧ inp.event ≠ .reset) →
    Sys2Proof.core.run n s = .next t →
    cmdDead t ∧ t.outCmd = s.outCmd

/-- A pass serves every flag that was set when it started, in the fixed priority order, each once, and
leaves no flag set (40_scheduler.md section 3, derived there): six slots from slot 0, with no other
step between them, are the handlers of the set flags, VERSION first and RXRDY last, each followed by
the clear of its bit. -/
def Obligations.PassServesTheFlagsInPriorityOrder : Prop :=
  ∀ s : State, SchedInv s → s.halted = false → s.dslot = 0 → s.dph = .sample →
    ∃ t : State, runPass s = .next t
      ∧ t = (List.finRange 6).foldl serviceSlot s
      ∧ t.flags = 0

/-- A pending request is dispatched within sixteen steps of `MAIN` when nothing else happens
(40_scheduler.md section 3, derived there, with the proviso of fairness made explicit): the drain comes
to the HANDLE phase of the flag's own slot with the flag still set. -/
def Obligations.EveryPendingFlagIsDispatched : Prop :=
  ∀ (s : State) (f : Flag), SchedInv s → s.halted = false → s.script = [] → pending s f →
    ∃ (n : Nat) (t : State), n ≤ 16 ∧ Sys2Proof.core.run n s = .next t
      ∧ t.dph = .handle ∧ prio t.dslot = f ∧ hasFlag t.params t.flags f = true

/-- Every accepted command is answered (42_command_channel.md section 5, derived there): a command
of code 12, 2 or 3 taken outside the gap of its own slot has, within seventeen steps of `MAIN`, exactly
one response, which echoes its channel, command and opt2 bytes and has a status of 0 or 255; and the
channel is armed again. -/
def Obligations.AcceptedCommandIsAnswered : Prop :=
  ∀ (s t : State) (f : Flag) (code : Byte) (a : CmdArgs), SchedInv s → CommandInv s →
    s.halted = false → s.cmdArmed = true → s.script = [] → codeOf f = some code →
    ¬(s.dph = .clear ∧ prio s.dslot = f) →
    exec (cmdRow code a) s = .next t →
    ∃ (n : Nat) (u : State) (m : Buf 16), n ≤ 17 ∧ Sys2Proof.core.run n t = .next u
      ∧ u.outCmd = s.outCmd ++ [m] ∧ u.cmdArmed = true
      ∧ m[0] = s.params.cmdSof ∧ m[1] = a.channel ∧ m[2] = code ∧ m[4] = a.opt2
      ∧ m[15] = s.params.cmdEof ∧ (m[3] = 0x00#8 ∨ m[3] = 0xFF#8)

/-- Every response is to the command that waits (42_command_channel.md section 5, derived there): any
step that appends to `OUT_CMD` appends one message, with the channel, command and opt2 bytes of
`CMD_RX`, for the flag of the slot in progress, whose code it carries. -/
def Obligations.EveryResponseAnswersTheHeldCommand : Prop :=
  ∀ s t : State, SchedInv s → CommandInv s → Machine.step s = .next t →
    t.outCmd = s.outCmd ∨ t.outCmd = []
      ∨ ∃ m : Buf 16, t.outCmd = s.outCmd ++ [m]
        ∧ s.dph = .handle ∧ codeOf (prio s.dslot) = some m[2]
        ∧ m[1] = s.cmdRx[1] ∧ m[2] = s.cmdRx[2] ∧ m[4] = s.cmdRx[4]

/-- R254: no step of an interrupt context calls open or close: it only raises flags and writes its
buffers and latches, and leaves `CAN_OPEN_ST` and the drain's position alone. More: no step of any
agent but `MAIN` starts a transmit or emits a message; the one call such a step records is the re-arm
of reception. And of all steps of an agent only the `D_HANDLE` of slot 1 calls open, and only that of
slot 2 calls close. -/
def Obligations.OnlyMainCallsAndEmits : Prop :=
  (∀ (s t : State) (i : Instr) (call : CanCall), exec i s = .next t → agentOf i ≠ none →
    t.canCalls = s.canCalls ++ [call] →
    ((∃ a, call = .open_ a) → i = .dHandle ∧ s.dph = .handle ∧ s.dslot = 1)
      ∧ (call = .close → i = .dHandle ∧ s.dph = .handle ∧ s.dslot = 2))
  ∧ ∀ (s t : State) (i : Instr), exec i s = .next t → i ≠ .resetEvent →
    agentOf i = some .uisr ∨ agentOf i = some .cisr ∨ agentOf i = some .environment →
    t.outCmd = s.outCmd ∧ t.outData = s.outData
      ∧ (t.canCalls = s.canCalls ∨ t.canCalls = s.canCalls ++ [.rxRearm])
      ∧ (∀ k : Nat, s.flags.getLsbD k = true → t.flags.getLsbD k = true) ∧ t.canOpenSt = s.canOpenSt
      ∧ t.dslot = s.dslot ∧ t.dph = s.dph ∧ t.dsnap.toNat = s.dsnap.toNat

/-- The producer column of the ownership table of 10_state.md section 8: each buffer, slot and latch
has one writing agent. A step of the USB interrupt context leaves `CMD_TX`'s frame bytes, `DATA_TX`,
`CAN_RX_SLOT`, `LAST_ERR` and the drain's position alone; one of the CAN interrupt context leaves
`CMD_RX`, `CMD_TX`, `DATA_RX`, `DATA_TX`, `CAN_TX_SLOT`, the descriptor, the mode latches and the
drain's position alone; one of `MAIN` leaves `CMD_RX`, `CMD_TX`'s payload bytes, `DATA_RX`, both
slots, `LAST_ERR`, the descriptor and the mode latches alone. -/
def Obligations.EachBufferHasOneWriter : Prop :=
  ∀ (s t : State) (i : Instr), exec i s = .next t →
    (agentOf i = some .uisr →
      (∀ k : Fin 16, k.val ≤ 4 ∨ k.val = 15 → t.cmdTx[k.val] = s.cmdTx[k.val])
        ∧ t.dataTx = s.dataTx ∧ t.canRxSlot = s.canRxSlot ∧ t.lastErr = s.lastErr
        ∧ t.dslot = s.dslot ∧ t.dph = s.dph ∧ t.dsnap.toNat = s.dsnap.toNat)
    ∧ (agentOf i = some .cisr →
      t.cmdRx = s.cmdRx ∧ t.cmdTx = s.cmdTx ∧ t.dataRx = s.dataRx ∧ t.dataTx = s.dataTx
        ∧ t.canTxSlot = s.canTxSlot
        ∧ (t.btSjw, t.btTs1, t.btTs2, t.btBrp) = (s.btSjw, s.btTs1, s.btTs2, s.btBrp)
        ∧ (t.cmS, t.cmL, t.cmO) = (s.cmS, s.cmL, s.cmO)
        ∧ t.dslot = s.dslot ∧ t.dph = s.dph ∧ t.dsnap.toNat = s.dsnap.toNat)
    ∧ (agentOf i = some .main →
      t.cmdRx = s.cmdRx ∧ (∀ k : Fin 16, 5 ≤ k.val → k.val ≤ 14 → t.cmdTx[k.val] = s.cmdTx[k.val])
        ∧ t.dataRx = s.dataRx ∧ t.canTxSlot = s.canTxSlot ∧ t.canRxSlot = s.canRxSlot
        ∧ t.lastErr = s.lastErr
        ∧ (t.btSjw, t.btTs1, t.btTs2, t.btBrp) = (s.btSjw, s.btTs1, s.btTs2, s.btBrp)
        ∧ (t.cmS, t.cmL, t.cmO) = (s.cmS, s.cmL, s.cmO))

/-- What backpressure makes safe (70_reset_and_hazards.md section 3, derived there): while the command
channel is not armed no step of the machine but reset changes `CMD_RX`, the prepared payload, the
descriptor or the mode latches; while the data channel is not armed none changes `CAN_TX_SLOT`. -/
def Obligations.DisarmedChannelsKeepTheirBuffers : Prop :=
  ∀ s t : State, Machine.step s = .next t →
    (∀ inp rest, s.script = inp :: rest → inp.event ≠ .reset) →
    (s.cmdArmed = false →
      t.cmdRx = s.cmdRx ∧ (∀ k : Fin 16, 5 ≤ k.val → k.val ≤ 14 → t.cmdTx[k.val] = s.cmdTx[k.val])
        ∧ (t.btSjw, t.btTs1, t.btTs2, t.btBrp) = (s.btSjw, s.btTs1, s.btTs2, s.btBrp)
        ∧ (t.cmS, t.cmL, t.cmO) = (s.cmS, s.cmL, s.cmO))
    ∧ (s.dataArmed = false → t.canTxSlot = s.canTxSlot)

/-- Outputs only grow (10_state.md section 7, decision D28): no step of the machine but reset takes
back or changes a response, a data message or a call already made. -/
def Obligations.OutputsOnlyGrow : Prop :=
  ∀ s t : State, Machine.step s = .next t →
    (∀ inp rest, s.script = inp :: rest → inp.event ≠ .reset) →
    s.outCmd <+: t.outCmd ∧ s.outData <+: t.outData ∧ s.canCalls <+: t.canCalls

/-- R28: `DATA_RX` holds the last message that passed validation; it is written by the data deliveries
alone (and by reset), and nothing reads it: two states that differ only in it step to outcomes that
differ in nothing else. -/
def Obligations.DataRxIsNeverReadAgain : Prop :=
  (∀ s t : State, forgetDataRx s = forgetDataRx t →
    forgetOutcome (Machine.step s) = forgetOutcome (Machine.step t))
  ∧ (∀ (s t : State) (i : Instr), exec i s = .next t → t.dataRx ≠ s.dataRx →
      i = .resetEvent ∨ (∃ fl idw dlc data, i = .dataIn fl idw dlc data) ∨ ∃ pkt, i = .usbDataOut pkt)
  ∧ ∀ (s : State) (b : Buf 16), s.halted = false → s.dataArmed = true →
      b[0] = s.params.dataSof → b[15] = s.params.dataEof →
      ∃ t : State, exec (.usbDataOut b.toList) s = .next t ∧ t.dataRx = b

/-- R111, with the ignored bytes that 30_encoding.md section 7 derives: two OPEN commands whose
payloads agree on bytes 0 to 4 and on the three mode bits of byte 8 leave states that differ in
`CMD_RX` alone, whatever the other payload bytes and the five other mode bits are. -/
def Obligations.IgnoredBytesOfOpenAreIgnored : Prop :=
  ∀ (s t u : State) (a b : CmdArgs),
    (∀ k : Fin 5, a.payload[k.val] = b.payload[k.val]) →
    (a.payload[8] &&& (s.params.cmSilent ||| s.params.cmLoopback ||| s.params.cmOneshot)
      = b.payload[8] &&& (s.params.cmSilent ||| s.params.cmLoopback ||| s.params.cmOneshot)) →
    exec (.cmdOpen a) s = .next t → exec (.cmdOpen b) s = .next u →
    { t with cmdRx := u.cmdRx } = u

/-- Set wins over clear (20_memory.md section 4, decision D7): for any flags raised and any mask
cleared on one edge, the port formula `(FLAGS & ~C) | S` is the clear followed by the raises, one by
one, in any order. -/
def Obligations.PortFormulaIsClearThenRaise : Prop :=
  ∀ (c : Params) (w mask : FlagWord c) (fs gs : List Flag), fs.Perm gs →
    portEdge w (fs.foldl (fun m f => m ||| flagBit c f) 0) mask
      = gs.foldl (fun v f => raiseBit c f v) (clearBits mask w)

/-- Buffer access (20_memory.md section 6, derived there): inside the buffer, reading back what
`MemWrite` wrote gives the value, every byte outside the `n` bytes is kept, and the bytes are
big-endian. -/
def Obligations.MemReadAfterMemWrite : Prop :=
  ∀ (m : Nat) (B : Buf m) (off n v : Nat), off + n ≤ m → v < 256 ^ n →
    memRead (memWrite B off n v) off n = v
      ∧ (∀ k : Nat, k < off ∨ off + n ≤ k → byteAt (memWrite B off n v) k = byteAt B k)
      ∧ ∀ k : Nat, k < n →
          (byteAt (memWrite B off n v) (off + k)).toNat = v / 256 ^ (n - 1 - k) % 256

/-- Coalescing by overwriting (43_data_channel.md section 3; Scenario 4 as its text reads it): any
number of CAN errors, at least one, with no drain step between them and no other flag set, make exactly
one report in the next pass, and it carries the code of the last one. -/
def Obligations.ErrorsCoalesceIntoOneReport : Prop :=
  ∀ (s t : State) (es : List ErrRec) (e : ErrRec), SchedInv s → s.halted = false →
    s.flags = 0 → s.dslot = 0 → s.dph = .sample →
    (es ++ [e]).foldl (fun o x => andThen o (exec (.canErr x))) (.next s) = .next t →
    ∃ (u : State) (code : Byte), runPass t = .next u
      ∧ exec (.errMap e) s = .next { s with result := .code code }
      ∧ u.outData = s.outData ++ [errMsg s.params code s.tickMs]
      ∧ u.flags = 0

end
end

