-- ==== Sys2Proof/Laws/Buffer.lean ====
section
/-! SUPPORT. What the buffer operations do: the small lemmas of byteAt, memRead, memWrite, slice,
writeSlice, toBuf and the message builders, so that no later proof unfolds them. -/

namespace Sys2Proof

theorem byteAt_of_lt {n : Nat} (B : Buf n) {i : Nat} (h : i < n) : byteAt B i = B[i] := by
  simp [byteAt, h]

@[simp] theorem memRead_zero {m : Nat} (B : Buf m) (off : Nat) : memRead B off 0 = 0 := rfl

theorem memRead_succ {m : Nat} (B : Buf m) (off n : Nat) :
    memRead B off (n + 1) = memRead B off n * 256 + (byteAt B (off + n)).toNat := rfl

@[simp] theorem memWrite_zero {m : Nat} (B : Buf m) (off v : Nat) : memWrite B off 0 v = B := rfl

theorem memWrite_succ {m : Nat} (B : Buf m) (off n v : Nat) :
    memWrite B off (n + 1) v
      = (memWrite B off n (v / 256)).setIfInBounds (off + n) (BitVec.ofNat 8 v) := rfl

/-- A read of `n` bytes is below `256^n`. -/
theorem memRead_lt {m : Nat} (B : Buf m) (off n : Nat) : memRead B off n < 256 ^ n := by
  induction n with
  | zero => simp
  | succ n ih =>
    have := (byteAt B (off + n)).isLt
    rw [memRead_succ, Nat.pow_succ]
    omega

/-- `byteAt` after one `setIfInBounds`. -/
theorem byteAt_setIfInBounds {m : Nat} (B : Buf m) (k i : Nat) (b : Byte) :
    byteAt (B.setIfInBounds k b) i = if k = i ∧ i < m then b else byteAt B i := by
  by_cases hi : i < m
  · by_cases hk : k = i
    · subst hk; simp [byteAt, hi]
    · simp [byteAt, hi, hk]
  · simp [byteAt, hi]

@[simp] theorem slice_getElem {m : Nat} (B : Buf m) (off n i : Nat) (h : i < n) :
    (slice B off n)[i] = byteAt B (off + i) := by
  simp [slice]

theorem writeSlice_getElem {m n : Nat} (B : Buf m) (off : Nat) (d : Buf n) (i : Nat) (h : i < m) :
    (writeSlice B off d)[i]
      = if off ≤ i ∧ i < off + n then byteAt d (i - off) else byteAt B i := by
  simp [writeSlice]

@[simp] theorem trim_getElem (n : Nat) (d : Buf 8) (i : Nat) (h : i < 8) :
    (trim n d)[i] = if i < n then d[i] else 0#8 := by
  simp [trim]

@[simp] theorem zeros_getElem (n i : Nat) (h : i < n) : (zeros n)[i] = 0#8 := by
  simp [zeros]

/-- A packet made of a buffer's bytes is that buffer. -/
@[simp] theorem toBuf_toList {n : Nat} (B : Buf n) : toBuf n B.toList = some B := by
  simp [toBuf, Vector.toList]

/-- `toBuf` answers exactly the buffer with the packet's bytes. -/
theorem toBuf_eq_some {n : Nat} {pkt : Packet} {B : Buf n} :
    toBuf n pkt = some B ↔ pkt = B.toList := by
  constructor
  · intro h
    unfold toBuf at h
    split at h
    · cases h; simp [Vector.toList]
    · cases h
  · rintro rfl; simp

theorem toBuf_eq_none {n : Nat} {pkt : Packet} : toBuf n pkt = none ↔ pkt.length ≠ n := by
  unfold toBuf; split <;> simp_all

/-- A framed command packet is a buffer's bytes, with its markers. -/
theorem cmdFrame?_eq_some {c : Params} {pkt : Packet} {b : Buf 16} :
    cmdFrame? c pkt = some b ↔ pkt = b.toList ∧ b[0] = c.cmdSof ∧ b[15] = c.cmdEof := by
  simp [cmdFrame?, Option.filter_eq_some_iff, toBuf_eq_some, cmdMarked]

/-- A framed data packet is a buffer's bytes, with its markers. -/
theorem dinFrame?_eq_some {c : Params} {pkt : Packet} {b : Buf 16} :
    dinFrame? c pkt = some b ↔ pkt = b.toList ∧ b[0] = c.dataSof ∧ b[15] = c.dataEof := by
  simp [dinFrame?, Option.filter_eq_some_iff, toBuf_eq_some, dinMarked]

/-- Two buffers with equal bytes are equal. -/
theorem buf_ext {n : Nat} {A B : Buf n} (h : ∀ i (hi : i < n), A[i] = B[i]) : A = B :=
  Vector.ext h

theorem cmdFrame?_cmdMsg (c : Params) (code : Byte) (a : CmdArgs) :
    cmdFrame? c (cmdMsg c code a).toList = some (cmdMsg c code a) :=
  cmdFrame?_eq_some.2 ⟨rfl, rfl, rfl⟩

/-- The fields of a built command message are the fields it was built from. -/
@[simp] theorem cmdArgsOf_cmdMsg (c : Params) (code : Byte) (a : CmdArgs) :
    cmdArgsOf (cmdMsg c code a) = a := by
  cases a with
  | mk channel opt1 opt2 payload =>
    simp only [cmdArgsOf, CmdArgs.mk.injEq]
    refine ⟨rfl, rfl, rfl, buf_ext fun i hi => ?_⟩
    rw [slice_getElem _ _ _ _ hi, byteAt_of_lt _ (by omega)]
    interval_cases i <;> rfl

/-- A framed command message is the one built from its own fields. -/
theorem cmdMsg_cmdArgsOf {c : Params} {b : Buf 16} (h0 : b[0] = c.cmdSof) (h15 : b[15] = c.cmdEof) :
    cmdMsg c b[2] (cmdArgsOf b) = b := by
  refine buf_ext fun i hi => ?_
  interval_cases i <;> simp [cmdMsg, cmdArgsOf, slice, byteAt, h0, h15]

/-- The four bytes of a big-endian word. -/
theorem memWrite_word_getElem {m : Nat} (B : Buf m) (off : Nat) (w : Word32) (i : Nat)
    (hi : i < m) :
    (memWrite B off 4 w.toNat)[i] =
      if i = off then w.extractLsb' 24 8
      else if i = off + 1 then w.extractLsb' 16 8
      else if i = off + 2 then w.extractLsb' 8 8
      else if i = off + 3 then w.extractLsb' 0 8
      else B[i] := by
  have e0 : BitVec.ofNat 8 w.toNat = w.extractLsb' 0 8 := by
    apply BitVec.eq_of_toNat_eq; simp
  have e1 : BitVec.ofNat 8 (w.toNat / 256) = w.extractLsb' 8 8 := by
    apply BitVec.eq_of_toNat_eq; simp [Nat.shiftRight_eq_div_pow]
  have e2 : BitVec.ofNat 8 (w.toNat / 256 / 256) = w.extractLsb' 16 8 := by
    apply BitVec.eq_of_toNat_eq; simp [Nat.shiftRight_eq_div_pow, Nat.div_div_eq_div_mul]
  have e3 : BitVec.ofNat 8 (w.toNat / 256 / 256 / 256) = w.extractLsb' 24 8 := by
    apply BitVec.eq_of_toNat_eq; simp [Nat.shiftRight_eq_div_pow, Nat.div_div_eq_div_mul]
  simp only [memWrite_succ, memWrite_zero, Vector.getElem_setIfInBounds, e0, e1, e2, e3]
  split_ifs <;> first | rfl | omega

/-- A word read back from its four bytes. -/
theorem memRead_word {m : Nat} (B : Buf m) (off : Nat) (w : Word32)
    (h0 : byteAt B off = w.extractLsb' 24 8) (h1 : byteAt B (off + 1) = w.extractLsb' 16 8)
    (h2 : byteAt B (off + 2) = w.extractLsb' 8 8) (h3 : byteAt B (off + 3) = w.extractLsb' 0 8) :
    memRead B off 4 = w.toNat := by
  have := w.isLt
  simp only [memRead_succ, memRead_zero, Nat.add_zero, h0, h1, h2, h3, BitVec.extractLsb'_toNat,
    Nat.shiftRight_eq_div_pow]
  omega

/-- The writes of R228 and R230 give the 21 bytes of R98, whatever `DATA_TX` held. -/
theorem doutWrite_eq (B : Buf 21) (c : Params) (ty fl : Byte) (idw : Word32) (dlc : Byte)
    (d : Buf 8) (ts : Word32) :
    doutWrite B c.dataSof ty fl idw dlc d ts c.dataEof = Machine.dout21 c ty fl idw dlc d ts := by
  refine buf_ext fun i hi => ?_
  simp only [doutWrite]
  interval_cases i <;>
    simp [memWrite_word_getElem, writeSlice_getElem, byteAt, Machine.dout21]

end Sys2Proof
end

