-- ==== Sys2Proof/Laws/Decode.lean ====
section
/-! SUPPORT. What the decoder's parts do: the row of a command code, and the fields of the built
messages, each said once. -/

namespace Sys2Proof

/-- What holds of every request row holds of the row of any code: the twelve codes with a row of
their own (R92), and every other code (R207). -/
theorem cmdRow_cases {motive : Byte → Instr → Prop} (a : CmdArgs)
    (h12 : motive 12#8 (.getSoftwHardwVer a)) (h2 : motive 2#8 (.cmdOpen a))
    (h3 : motive 3#8 (.cmdClose a)) (h1 : motive 1#8 (.cmdReset a)) (h4 : motive 4#8 (.setSpeed a))
    (h5 : motive 5#8 (.setMaskFilter a)) (h6 : motive 6#8 (.getStatus a))
    (h7 : motive 7#8 (.getStatistics a)) (h8 : motive 8#8 (.getSerial a))
    (h9 : motive 9#8 (.getSoftwVer a)) (h10 : motive 10#8 (.getHardwVer a))
    (h11 : motive 11#8 (.resetTimestamp a))
    (hx : ∀ code, hasOwnRow code = false → motive code (.cmdUnrecognized code a)) (code : Byte) :
    motive code (cmdRow code a) := by
  unfold cmdRow
  by_cases e12 : code = 12#8
  · rw [if_pos e12, e12]; exact h12
  by_cases e2 : code = 2#8
  · rw [if_neg e12, if_pos e2, e2]; exact h2
  by_cases e3 : code = 3#8
  · rw [if_neg e12, if_neg e2, if_pos e3, e3]; exact h3
  by_cases e1 : code = 1#8
  · rw [if_neg e12, if_neg e2, if_neg e3, if_pos e1, e1]; exact h1
  rw [if_neg e12, if_neg e2, if_neg e3, if_neg e1]
  by_cases e4 : code = 4#8
  · rw [if_pos e4, e4]; exact h4
  by_cases e5 : code = 5#8
  · rw [if_neg e4, if_pos e5, e5]; exact h5
  by_cases e6 : code = 6#8
  · rw [if_neg e4, if_neg e5, if_pos e6, e6]; exact h6
  rw [if_neg e4, if_neg e5, if_neg e6]
  by_cases e7 : code = 7#8
  · rw [if_pos e7, e7]; exact h7
  by_cases e8 : code = 8#8
  · rw [if_neg e7, if_pos e8, e8]; exact h8
  by_cases e9 : code = 9#8
  · rw [if_neg e7, if_neg e8, if_pos e9, e9]; exact h9
  rw [if_neg e7, if_neg e8, if_neg e9]
  by_cases e10 : code = 10#8
  · rw [if_pos e10, e10]; exact h10
  by_cases e11 : code = 11#8
  · rw [if_neg e10, if_pos e11, e11]; exact h11
  rw [if_neg e10, if_neg e11]
  refine hx code ?_
  by_contra ho
  rw [Bool.not_eq_false] at ho
  have hall : ∀ b : Byte, hasOwnRow b = true → b = 12#8 ∨ b = 2#8 ∨ b = 3#8 ∨ b = 1#8 ∨ b = 4#8
      ∨ b = 5#8 ∨ b = 6#8 ∨ b = 7#8 ∨ b = 8#8 ∨ b = 9#8 ∨ b = 10#8 ∨ b = 11#8 := by decide
  rcases hall code ho with h | h | h | h | h | h | h | h | h | h | h | h
  · exact e12 h
  · exact e2 h
  · exact e3 h
  · exact e1 h
  · exact e4 h
  · exact e5 h
  · exact e6 h
  · exact e7 h
  · exact e8 h
  · exact e9 h
  · exact e10 h
  · exact e11 h

/-- A code without a row of its own has the last row (R207, R118). -/
theorem cmdRow_of_not_hasOwnRow {code : Byte} (h : hasOwnRow code = false) (a : CmdArgs) :
    cmdRow code a = .cmdUnrecognized code a := by
  have := cmdRow_cases (motive := fun c i => hasOwnRow c = false → i = .cmdUnrecognized c a) a
    (by intro h; exact absurd h (by decide)) (by intro h; exact absurd h (by decide))
    (by intro h; exact absurd h (by decide)) (by intro h; exact absurd h (by decide))
    (by intro h; exact absurd h (by decide)) (by intro h; exact absurd h (by decide))
    (by intro h; exact absurd h (by decide)) (by intro h; exact absurd h (by decide))
    (by intro h; exact absurd h (by decide)) (by intro h; exact absurd h (by decide))
    (by intro h; exact absurd h (by decide)) (by intro h; exact absurd h (by decide))
    (fun _ _ _ => rfl) code
  exact this h

/-- The four bytes of a word that was read big-endian (R77). -/
theorem memRead_bytes {m : Nat} (B : Buf m) (off : Nat) (h : off + 3 < m) :
    (BitVec.ofNat 32 (memRead B off 4)).extractLsb' 24 8 = B[off]
      ∧ (BitVec.ofNat 32 (memRead B off 4)).extractLsb' 16 8 = B[off + 1]
      ∧ (BitVec.ofNat 32 (memRead B off 4)).extractLsb' 8 8 = B[off + 2]
      ∧ (BitVec.ofNat 32 (memRead B off 4)).extractLsb' 0 8 = B[off + 3] := by
  have b0 : byteAt B off = B[off] := byteAt_of_lt B (by omega)
  have b1 : byteAt B (off + 1) = B[off + 1] := byteAt_of_lt B (by omega)
  have b2 : byteAt B (off + 2) = B[off + 2] := byteAt_of_lt B (by omega)
  have b3 : byteAt B (off + 3) = B[off + 3] := byteAt_of_lt B (by omega)
  have e : memRead B off 4 = ((B[off].toNat * 256 + B[off + 1].toNat) * 256 + B[off + 2].toNat)
      * 256 + B[off + 3].toNat := by
    simp only [memRead_succ, memRead_zero, Nat.add_zero, b0, b1, b2, b3, Nat.zero_mul, Nat.zero_add]
  have h0 := B[off].isLt
  have h1 := B[off + 1].isLt
  have h2 := B[off + 2].isLt
  have h3 := B[off + 3].isLt
  have lt : memRead B off 4 < 4294967296 := by rw [e]; omega
  have key : ∀ k : Nat, ((BitVec.ofNat 32 (memRead B off 4)).extractLsb' k 8).toNat
      = memRead B off 4 / 2 ^ k % 256 := by
    intro k
    rw [BitVec.extractLsb'_toNat, BitVec.toNat_ofNat, Nat.mod_eq_of_lt lt,
      Nat.shiftRight_eq_div_pow]
  refine ⟨?_, ?_, ?_, ?_⟩ <;> apply BitVec.eq_of_toNat_eq <;> rw [key, e] <;> omega

/-- The sixteen bytes of an inbound data message (R97). -/
theorem dinMsg_eq (c : Params) (fl : Byte) (idw : Word32) (dlc : Byte) (d : Buf 8) :
    dinMsg c fl idw dlc d = #v[c.dataSof, fl, idw.extractLsb' 24 8, idw.extractLsb' 16 8,
      idw.extractLsb' 8 8, idw.extractLsb' 0 8, dlc, d[0], d[1], d[2], d[3], d[4], d[5], d[6], d[7],
      c.dataEof] := by
  refine buf_ext fun i hi => ?_
  simp only [dinMsg]
  interval_cases i <;> simp [memWrite_word_getElem, writeSlice_getElem, byteAt]

/-- The fields of a built inbound data message are the fields it was built from. -/
theorem dinRow_dinMsg (c : Params) (fl : Byte) (idw : Word32) (dlc : Byte) (d : Buf 8) :
    dinRow (dinMsg c fl idw dlc d) = .dataIn fl idw dlc d := by
  rw [dinMsg_eq, dinRow, memRead_word _ 2 idw rfl rfl rfl rfl]
  have hs : slice (#v[c.dataSof, fl, idw.extractLsb' 24 8, idw.extractLsb' 16 8,
      idw.extractLsb' 8 8, idw.extractLsb' 0 8, dlc, d[0], d[1], d[2], d[3], d[4], d[5], d[6], d[7],
      c.dataEof] : Buf 16) 7 8 = d := by
    refine buf_ext fun i hi => ?_
    rw [slice_getElem _ _ _ _ hi]
    interval_cases i <;> simp [byteAt]
  rw [hs]
  simp

/-- A framed inbound data message is the one built from its own fields. -/
theorem dinMsg_of_framed {c : Params} {b : Buf 16} (h0 : b[0] = c.dataSof) (h15 : b[15] = c.dataEof) :
    dinMsg c b[1] (BitVec.ofNat 32 (memRead b 2 4)) b[6] (slice b 7 8) = b := by
  obtain ⟨w0, w1, w2, w3⟩ := memRead_bytes b 2 (by omega)
  rw [dinMsg_eq]
  generalize BitVec.ofNat 32 (memRead b 2 4) = w at *
  refine buf_ext fun i hi => ?_
  interval_cases i <;> simp [byteAt, h0, h15, slice, w0, w1, w2, w3]

/-- The identifier, payload and timestamp of a built outbound message (R98). -/
theorem dout21_fields (c : Params) (ty fl : Byte) (idw : Word32) (dlc : Byte) (d : Buf 8)
    (ts : Word32) :
    memRead (Machine.dout21 c ty fl idw dlc d ts) 3 4 = idw.toNat
      ∧ slice (Machine.dout21 c ty fl idw dlc d ts) 8 8 = d
      ∧ doutTs (Machine.dout21 c ty fl idw dlc d ts) = ts := by
  refine ⟨memRead_word _ 3 idw rfl rfl rfl rfl, ?_, ?_⟩
  · refine buf_ext fun i hi => ?_
    rw [slice_getElem _ _ _ _ hi]
    interval_cases i <;> simp [byteAt, Machine.dout21]
  · unfold doutTs
    rw [memRead_word _ 16 ts rfl rfl rfl rfl]
    simp

/-- A framed outbound message is the one built from its own fields (R98). -/
theorem dout21_of_framed {c : Params} {b : Buf 21} (h0 : b[0] = c.dataSof) (h20 : b[20] = c.dataEof) :
    Machine.dout21 c b[1] b[2] (BitVec.ofNat 32 (memRead b 3 4)) b[7] (slice b 8 8) (doutTs b)
      = b := by
  obtain ⟨w0, w1, w2, w3⟩ := memRead_bytes b 3 (by omega)
  obtain ⟨v0, v1, v2, v3⟩ := memRead_bytes b 16 (by omega)
  unfold doutTs
  generalize BitVec.ofNat 32 (memRead b 3 4) = w at *
  generalize BitVec.ofNat 32 (memRead b 16 4) = v at *
  refine buf_ext fun i hi => ?_
  interval_cases i <;>
    simp [Machine.dout21, slice, byteAt, h0, h20, w0, w1, w2, w3, v0, v1, v2, v3]

/-- The flag the decoder finds at an index has that index (R21). -/
theorem flagAt_some {c : Params} {ix : Nat} {f : Flag} (h : flagAt c ix = some f) :
    (c.flagIx f).val = ix := by
  simpa using List.find?_some h

end Sys2Proof
end

