-- ==== Sys2Proof/Laws/State.lean ====
section
/-! SUPPORT. One lemma per field per named update of the state, true by rfl, so that no later proof
unfolds a record update. -/

namespace Sys2Proof.Machine

open Sys2Proof

/-! ### The scheduler's part of a state

A flag word's type names the parameters of its own state (`FLAG_W`), so the flag words of two states are
compared inside one record that holds the parameters too. -/

/-- The parameters, `FLAGS`, `DSLOT`, `DPH` and `DSNAP` of a state. -/
structure SchedView where
  params : Params
  flags : FlagWord params
  dslot : Fin 6
  dph : Phase
  dsnap : FlagWord params

/-- The scheduler's part of a state. -/
def State.sched (s : State) : SchedView :=
  ⟨s.params, s.flags, s.dslot, s.dph, s.dsnap⟩

/-- What equal scheduler parts have in common, field by field; the two words bit by bit. -/
theorem sched_fields {s t : State} (h : t.sched = s.sched) :
    t.params = s.params ∧ (∀ i, t.flags.getLsbD i = s.flags.getLsbD i) ∧ t.dslot = s.dslot
      ∧ t.dph = s.dph ∧ ∀ i, t.dsnap.getLsbD i = s.dsnap.getLsbD i :=
  ⟨congrArg SchedView.params h, fun i => congrArg (fun v : SchedView => v.flags.getLsbD i) h,
    congrArg SchedView.dslot h, congrArg SchedView.dph h,
    fun i => congrArg (fun v : SchedView => v.dsnap.getLsbD i) h⟩

theorem hasFlag_of_sched {s t : State} (h : t.sched = s.sched) (f : Flag) :
    hasFlag t.params t.flags f = hasFlag s.params s.flags f :=
  congrArg (fun v : SchedView => hasFlag v.params v.flags f) h

theorem pending_of_sched {s t : State} (h : t.sched = s.sched) (f : Flag) :
    pending t f ↔ pending s f := by
  obtain ⟨-, -, hslot, hph, -⟩ := sched_fields h
  rw [pending, pending, hasFlag_of_sched h, hslot, hph]

/-- The invariant reads nothing but the scheduler's part. -/
theorem schedInv_of_view {v : SchedView} {s t : State} (hs : s.sched = v) (ht : t.sched = v)
    (h : SchedInv s) : SchedInv t := by
  cases s; cases t; cases hs; cases ht
  exact ⟨h.params_wf, h.reserved, h.snap_sample, h.snap_window, h.flag_window⟩

variable (s : State)

/-! ### `State.raise` (R140) -/

@[simp] theorem State.raise_params (f : Flag) : (s.raise f).params = s.params := rfl
@[simp] theorem State.raise_sched (f : Flag) :
    (s.raise f).sched = { s.sched with flags := raiseBit s.params f s.flags } := rfl
@[simp] theorem State.raise_flags (f : Flag) :
    (s.raise f).flags = raiseBit s.params f s.flags := rfl
@[simp] theorem State.raise_dslot (f : Flag) : (s.raise f).dslot = s.dslot := rfl
@[simp] theorem State.raise_dph (f : Flag) : (s.raise f).dph = s.dph := rfl
@[simp] theorem State.raise_dsnap (f : Flag) : (s.raise f).dsnap = s.dsnap := rfl
@[simp] theorem State.raise_btSjw (f : Flag) : (s.raise f).btSjw = s.btSjw := rfl
@[simp] theorem State.raise_btTs1 (f : Flag) : (s.raise f).btTs1 = s.btTs1 := rfl
@[simp] theorem State.raise_btTs2 (f : Flag) : (s.raise f).btTs2 = s.btTs2 := rfl
@[simp] theorem State.raise_btBrp (f : Flag) : (s.raise f).btBrp = s.btBrp := rfl
@[simp] theorem State.raise_cmS (f : Flag) : (s.raise f).cmS = s.cmS := rfl
@[simp] theorem State.raise_cmL (f : Flag) : (s.raise f).cmL = s.cmL := rfl
@[simp] theorem State.raise_cmO (f : Flag) : (s.raise f).cmO = s.cmO := rfl
@[simp] theorem State.raise_cmdRx (f : Flag) : (s.raise f).cmdRx = s.cmdRx := rfl
@[simp] theorem State.raise_cmdTx (f : Flag) : (s.raise f).cmdTx = s.cmdTx := rfl
@[simp] theorem State.raise_dataRx (f : Flag) : (s.raise f).dataRx = s.dataRx := rfl
@[simp] theorem State.raise_dataTx (f : Flag) : (s.raise f).dataTx = s.dataTx := rfl
@[simp] theorem State.raise_canTxSlot (f : Flag) : (s.raise f).canTxSlot = s.canTxSlot := rfl
@[simp] theorem State.raise_canRxSlot (f : Flag) : (s.raise f).canRxSlot = s.canRxSlot := rfl
@[simp] theorem State.raise_lastErr (f : Flag) : (s.raise f).lastErr = s.lastErr := rfl
@[simp] theorem State.raise_cmdArmed (f : Flag) : (s.raise f).cmdArmed = s.cmdArmed := rfl
@[simp] theorem State.raise_dataArmed (f : Flag) : (s.raise f).dataArmed = s.dataArmed := rfl
@[simp] theorem State.raise_canOpenSt (f : Flag) : (s.raise f).canOpenSt = s.canOpenSt := rfl
@[simp] theorem State.raise_canTxBusy (f : Flag) : (s.raise f).canTxBusy = s.canTxBusy := rfl
@[simp] theorem State.raise_fault (f : Flag) : (s.raise f).fault = s.fault := rfl
@[simp] theorem State.raise_halted (f : Flag) : (s.raise f).halted = s.halted := rfl
@[simp] theorem State.raise_outCmd (f : Flag) : (s.raise f).outCmd = s.outCmd := rfl
@[simp] theorem State.raise_outData (f : Flag) : (s.raise f).outData = s.outData := rfl
@[simp] theorem State.raise_canCalls (f : Flag) : (s.raise f).canCalls = s.canCalls := rfl
@[simp] theorem State.raise_tickMs (f : Flag) : (s.raise f).tickMs = s.tickMs := rfl
@[simp] theorem State.raise_canStatus (f : Flag) : (s.raise f).canStatus = s.canStatus := rfl
@[simp] theorem State.raise_script (f : Flag) : (s.raise f).script = s.script := rfl
@[simp] theorem State.raise_draws (f : Flag) : (s.raise f).draws = s.draws := rfl
@[simp] theorem State.raise_result (f : Flag) : (s.raise f).result = s.result := rfl

/-! ### `State.clearFlag` -/

@[simp] theorem State.clearFlag_params (f : Flag) : (s.clearFlag f).params = s.params := rfl
@[simp] theorem State.clearFlag_sched (f : Flag) :
    (s.clearFlag f).sched = { s.sched with flags := clearBits (flagBit s.params f) s.flags } := rfl
@[simp] theorem State.clearFlag_dslot (f : Flag) : (s.clearFlag f).dslot = s.dslot := rfl
@[simp] theorem State.clearFlag_halted (f : Flag) : (s.clearFlag f).halted = s.halted := rfl

/-! ### `State.btDecode` (R170) -/

@[simp] theorem State.btDecode_params (p : Buf 10) : (s.btDecode p).params = s.params := rfl
@[simp] theorem State.btDecode_sched (p : Buf 10) : (s.btDecode p).sched = s.sched := rfl
@[simp] theorem State.btDecode_flags (p : Buf 10) : (s.btDecode p).flags = s.flags := rfl
@[simp] theorem State.btDecode_dslot (p : Buf 10) : (s.btDecode p).dslot = s.dslot := rfl
@[simp] theorem State.btDecode_dph (p : Buf 10) : (s.btDecode p).dph = s.dph := rfl
@[simp] theorem State.btDecode_dsnap (p : Buf 10) : (s.btDecode p).dsnap = s.dsnap := rfl
@[simp] theorem State.btDecode_btSjw (p : Buf 10) : (s.btDecode p).btSjw = sjwOf p[2] := rfl
@[simp] theorem State.btDecode_btTs1 (p : Buf 10) : (s.btDecode p).btTs1 = ts1Of p[0] := rfl
@[simp] theorem State.btDecode_btTs2 (p : Buf 10) : (s.btDecode p).btTs2 = ts2Of p[1] := rfl
@[simp] theorem State.btDecode_btBrp (p : Buf 10) : (s.btDecode p).btBrp = brpOf p := rfl
@[simp] theorem State.btDecode_cmS (p : Buf 10) :
    (s.btDecode p).cmS = testMask p[8] s.params.cmSilent := rfl
@[simp] theorem State.btDecode_cmL (p : Buf 10) :
    (s.btDecode p).cmL = testMask p[8] s.params.cmLoopback := rfl
@[simp] theorem State.btDecode_cmO (p : Buf 10) :
    (s.btDecode p).cmO = testMask p[8] s.params.cmOneshot := rfl
@[simp] theorem State.btDecode_cmdRx (p : Buf 10) : (s.btDecode p).cmdRx = s.cmdRx := rfl
@[simp] theorem State.btDecode_cmdTx (p : Buf 10) : (s.btDecode p).cmdTx = s.cmdTx := rfl
@[simp] theorem State.btDecode_dataRx (p : Buf 10) : (s.btDecode p).dataRx = s.dataRx := rfl
@[simp] theorem State.btDecode_dataTx (p : Buf 10) : (s.btDecode p).dataTx = s.dataTx := rfl
@[simp] theorem State.btDecode_canTxSlot (p : Buf 10) :
    (s.btDecode p).canTxSlot = s.canTxSlot := rfl
@[simp] theorem State.btDecode_canRxSlot (p : Buf 10) :
    (s.btDecode p).canRxSlot = s.canRxSlot := rfl
@[simp] theorem State.btDecode_lastErr (p : Buf 10) : (s.btDecode p).lastErr = s.lastErr := rfl
@[simp] theorem State.btDecode_cmdArmed (p : Buf 10) : (s.btDecode p).cmdArmed = s.cmdArmed := rfl
@[simp] theorem State.btDecode_dataArmed (p : Buf 10) :
    (s.btDecode p).dataArmed = s.dataArmed := rfl
@[simp] theorem State.btDecode_canOpenSt (p : Buf 10) :
    (s.btDecode p).canOpenSt = s.canOpenSt := rfl
@[simp] theorem State.btDecode_canTxBusy (p : Buf 10) :
    (s.btDecode p).canTxBusy = s.canTxBusy := rfl
@[simp] theorem State.btDecode_fault (p : Buf 10) : (s.btDecode p).fault = s.fault := rfl
@[simp] theorem State.btDecode_halted (p : Buf 10) : (s.btDecode p).halted = s.halted := rfl
@[simp] theorem State.btDecode_outCmd (p : Buf 10) : (s.btDecode p).outCmd = s.outCmd := rfl
@[simp] theorem State.btDecode_outData (p : Buf 10) : (s.btDecode p).outData = s.outData := rfl
@[simp] theorem State.btDecode_canCalls (p : Buf 10) : (s.btDecode p).canCalls = s.canCalls := rfl
@[simp] theorem State.btDecode_tickMs (p : Buf 10) : (s.btDecode p).tickMs = s.tickMs := rfl
@[simp] theorem State.btDecode_canStatus (p : Buf 10) :
    (s.btDecode p).canStatus = s.canStatus := rfl
@[simp] theorem State.btDecode_script (p : Buf 10) : (s.btDecode p).script = s.script := rfl
@[simp] theorem State.btDecode_draws (p : Buf 10) : (s.btDecode p).draws = s.draws := rfl
@[simp] theorem State.btDecode_result (p : Buf 10) : (s.btDecode p).result = s.result := rfl

/-! ### `State.clearPayload` (R193) -/

@[simp] theorem State.clearPayload_params : (s.clearPayload).params = s.params := rfl
@[simp] theorem State.clearPayload_sched : s.clearPayload.sched = s.sched := rfl
@[simp] theorem State.clearPayload_flags : (s.clearPayload).flags = s.flags := rfl
@[simp] theorem State.clearPayload_dslot : (s.clearPayload).dslot = s.dslot := rfl
@[simp] theorem State.clearPayload_dph : (s.clearPayload).dph = s.dph := rfl
@[simp] theorem State.clearPayload_dsnap : (s.clearPayload).dsnap = s.dsnap := rfl
@[simp] theorem State.clearPayload_btSjw : (s.clearPayload).btSjw = s.btSjw := rfl
@[simp] theorem State.clearPayload_btTs1 : (s.clearPayload).btTs1 = s.btTs1 := rfl
@[simp] theorem State.clearPayload_btTs2 : (s.clearPayload).btTs2 = s.btTs2 := rfl
@[simp] theorem State.clearPayload_btBrp : (s.clearPayload).btBrp = s.btBrp := rfl
@[simp] theorem State.clearPayload_cmS : (s.clearPayload).cmS = s.cmS := rfl
@[simp] theorem State.clearPayload_cmL : (s.clearPayload).cmL = s.cmL := rfl
@[simp] theorem State.clearPayload_cmO : (s.clearPayload).cmO = s.cmO := rfl
@[simp] theorem State.clearPayload_cmdRx : (s.clearPayload).cmdRx = s.cmdRx := rfl
@[simp] theorem State.clearPayload_cmdTx :
    (s.clearPayload).cmdTx = writeSlice s.cmdTx 5 (zeros 10) := rfl
@[simp] theorem State.clearPayload_dataRx : (s.clearPayload).dataRx = s.dataRx := rfl
@[simp] theorem State.clearPayload_dataTx : (s.clearPayload).dataTx = s.dataTx := rfl
@[simp] theorem State.clearPayload_canTxSlot : (s.clearPayload).canTxSlot = s.canTxSlot := rfl
@[simp] theorem State.clearPayload_canRxSlot : (s.clearPayload).canRxSlot = s.canRxSlot := rfl
@[simp] theorem State.clearPayload_lastErr : (s.clearPayload).lastErr = s.lastErr := rfl
@[simp] theorem State.clearPayload_cmdArmed : (s.clearPayload).cmdArmed = s.cmdArmed := rfl
@[simp] theorem State.clearPayload_dataArmed : (s.clearPayload).dataArmed = s.dataArmed := rfl
@[simp] theorem State.clearPayload_canOpenSt : (s.clearPayload).canOpenSt = s.canOpenSt := rfl
@[simp] theorem State.clearPayload_canTxBusy : (s.clearPayload).canTxBusy = s.canTxBusy := rfl
@[simp] theorem State.clearPayload_fault : (s.clearPayload).fault = s.fault := rfl
@[simp] theorem State.clearPayload_halted : (s.clearPayload).halted = s.halted := rfl
@[simp] theorem State.clearPayload_outCmd : (s.clearPayload).outCmd = s.outCmd := rfl
@[simp] theorem State.clearPayload_outData : (s.clearPayload).outData = s.outData := rfl
@[simp] theorem State.clearPayload_canCalls : (s.clearPayload).canCalls = s.canCalls := rfl
@[simp] theorem State.clearPayload_tickMs : (s.clearPayload).tickMs = s.tickMs := rfl
@[simp] theorem State.clearPayload_canStatus : (s.clearPayload).canStatus = s.canStatus := rfl
@[simp] theorem State.clearPayload_script : (s.clearPayload).script = s.script := rfl
@[simp] theorem State.clearPayload_draws : (s.clearPayload).draws = s.draws := rfl
@[simp] theorem State.clearPayload_result : (s.clearPayload).result = s.result := rfl

/-! ### `State.transmitResponse` (R210) -/

@[simp] theorem State.transmitResponse_params (m : Buf 16) :
    (s.transmitResponse m).params = s.params := rfl
@[simp] theorem State.transmitResponse_sched (m : Buf 16) :
    (s.transmitResponse m).sched = s.sched := rfl
@[simp] theorem State.transmitResponse_flags (m : Buf 16) :
    (s.transmitResponse m).flags = s.flags := rfl
@[simp] theorem State.transmitResponse_dslot (m : Buf 16) :
    (s.transmitResponse m).dslot = s.dslot := rfl
@[simp] theorem State.transmitResponse_dph (m : Buf 16) : (s.transmitResponse m).dph = s.dph := rfl
@[simp] theorem State.transmitResponse_dsnap (m : Buf 16) :
    (s.transmitResponse m).dsnap = s.dsnap := rfl
@[simp] theorem State.transmitResponse_btSjw (m : Buf 16) :
    (s.transmitResponse m).btSjw = s.btSjw := rfl
@[simp] theorem State.transmitResponse_btTs1 (m : Buf 16) :
    (s.transmitResponse m).btTs1 = s.btTs1 := rfl
@[simp] theorem State.transmitResponse_btTs2 (m : Buf 16) :
    (s.transmitResponse m).btTs2 = s.btTs2 := rfl
@[simp] theorem State.transmitResponse_btBrp (m : Buf 16) :
    (s.transmitResponse m).btBrp = s.btBrp := rfl
@[simp] theorem State.transmitResponse_cmS (m : Buf 16) : (s.transmitResponse m).cmS = s.cmS := rfl
@[simp] theorem State.transmitResponse_cmL (m : Buf 16) : (s.transmitResponse m).cmL = s.cmL := rfl
@[simp] theorem State.transmitResponse_cmO (m : Buf 16) : (s.transmitResponse m).cmO = s.cmO := rfl
@[simp] theorem State.transmitResponse_cmdRx (m : Buf 16) :
    (s.transmitResponse m).cmdRx = s.cmdRx := rfl
@[simp] theorem State.transmitResponse_cmdTx (m : Buf 16) : (s.transmitResponse m).cmdTx = m := rfl
@[simp] theorem State.transmitResponse_dataRx (m : Buf 16) :
    (s.transmitResponse m).dataRx = s.dataRx := rfl
@[simp] theorem State.transmitResponse_dataTx (m : Buf 16) :
    (s.transmitResponse m).dataTx = s.dataTx := rfl
@[simp] theorem State.transmitResponse_canTxSlot (m : Buf 16) :
    (s.transmitResponse m).canTxSlot = s.canTxSlot := rfl
@[simp] theorem State.transmitResponse_canRxSlot (m : Buf 16) :
    (s.transmitResponse m).canRxSlot = s.canRxSlot := rfl
@[simp] theorem State.transmitResponse_lastErr (m : Buf 16) :
    (s.transmitResponse m).lastErr = s.lastErr := rfl
@[simp] theorem State.transmitResponse_cmdArmed (m : Buf 16) :
    (s.transmitResponse m).cmdArmed = true := rfl
@[simp] theorem State.transmitResponse_dataArmed (m : Buf 16) :
    (s.transmitResponse m).dataArmed = s.dataArmed := rfl
@[simp] theorem State.transmitResponse_canOpenSt (m : Buf 16) :
    (s.transmitResponse m).canOpenSt = s.canOpenSt := rfl
@[simp] theorem State.transmitResponse_canTxBusy (m : Buf 16) :
    (s.transmitResponse m).canTxBusy = s.canTxBusy := rfl
@[simp] theorem State.transmitResponse_fault (m : Buf 16) :
    (s.transmitResponse m).fault = s.fault := rfl
@[simp] theorem State.transmitResponse_halted (m : Buf 16) :
    (s.transmitResponse m).halted = s.halted := rfl
@[simp] theorem State.transmitResponse_outCmd (m : Buf 16) :
    (s.transmitResponse m).outCmd = s.outCmd ++ [m] := rfl
@[simp] theorem State.transmitResponse_outData (m : Buf 16) :
    (s.transmitResponse m).outData = s.outData := rfl
@[simp] theorem State.transmitResponse_canCalls (m : Buf 16) :
    (s.transmitResponse m).canCalls = s.canCalls := rfl
@[simp] theorem State.transmitResponse_tickMs (m : Buf 16) :
    (s.transmitResponse m).tickMs = s.tickMs := rfl
@[simp] theorem State.transmitResponse_canStatus (m : Buf 16) :
    (s.transmitResponse m).canStatus = s.canStatus := rfl
@[simp] theorem State.transmitResponse_script (m : Buf 16) :
    (s.transmitResponse m).script = s.script := rfl
@[simp] theorem State.transmitResponse_draws (m : Buf 16) :
    (s.transmitResponse m).draws = s.draws := rfl
@[simp] theorem State.transmitResponse_result (m : Buf 16) :
    (s.transmitResponse m).result = s.result := rfl

/-! ### `State.transmitData` (R228, R230) -/

@[simp] theorem State.transmitData_params (m : Buf 21) : (s.transmitData m).params = s.params := rfl
@[simp] theorem State.transmitData_sched (m : Buf 21) : (s.transmitData m).sched = s.sched := rfl
@[simp] theorem State.transmitData_flags (m : Buf 21) : (s.transmitData m).flags = s.flags := rfl
@[simp] theorem State.transmitData_dslot (m : Buf 21) : (s.transmitData m).dslot = s.dslot := rfl
@[simp] theorem State.transmitData_dph (m : Buf 21) : (s.transmitData m).dph = s.dph := rfl
@[simp] theorem State.transmitData_dsnap (m : Buf 21) : (s.transmitData m).dsnap = s.dsnap := rfl
@[simp] theorem State.transmitData_btSjw (m : Buf 21) : (s.transmitData m).btSjw = s.btSjw := rfl
@[simp] theorem State.transmitData_btTs1 (m : Buf 21) : (s.transmitData m).btTs1 = s.btTs1 := rfl
@[simp] theorem State.transmitData_btTs2 (m : Buf 21) : (s.transmitData m).btTs2 = s.btTs2 := rfl
@[simp] theorem State.transmitData_btBrp (m : Buf 21) : (s.transmitData m).btBrp = s.btBrp := rfl
@[simp] theorem State.transmitData_cmS (m : Buf 21) : (s.transmitData m).cmS = s.cmS := rfl
@[simp] theorem State.transmitData_cmL (m : Buf 21) : (s.transmitData m).cmL = s.cmL := rfl
@[simp] theorem State.transmitData_cmO (m : Buf 21) : (s.transmitData m).cmO = s.cmO := rfl
@[simp] theorem State.transmitData_cmdRx (m : Buf 21) : (s.transmitData m).cmdRx = s.cmdRx := rfl
@[simp] theorem State.transmitData_cmdTx (m : Buf 21) : (s.transmitData m).cmdTx = s.cmdTx := rfl
@[simp] theorem State.transmitData_dataRx (m : Buf 21) : (s.transmitData m).dataRx = s.dataRx := rfl
@[simp] theorem State.transmitData_dataTx (m : Buf 21) : (s.transmitData m).dataTx = m := rfl
@[simp] theorem State.transmitData_canTxSlot (m : Buf 21) :
    (s.transmitData m).canTxSlot = s.canTxSlot := rfl
@[simp] theorem State.transmitData_canRxSlot (m : Buf 21) :
    (s.transmitData m).canRxSlot = s.canRxSlot := rfl
@[simp] theorem State.transmitData_lastErr (m : Buf 21) :
    (s.transmitData m).lastErr = s.lastErr := rfl
@[simp] theorem State.transmitData_cmdArmed (m : Buf 21) :
    (s.transmitData m).cmdArmed = s.cmdArmed := rfl
@[simp] theorem State.transmitData_dataArmed (m : Buf 21) :
    (s.transmitData m).dataArmed = s.dataArmed := rfl
@[simp] theorem State.transmitData_canOpenSt (m : Buf 21) :
    (s.transmitData m).canOpenSt = s.canOpenSt := rfl
@[simp] theorem State.transmitData_canTxBusy (m : Buf 21) :
    (s.transmitData m).canTxBusy = s.canTxBusy := rfl
@[simp] theorem State.transmitData_fault (m : Buf 21) : (s.transmitData m).fault = s.fault := rfl
@[simp] theorem State.transmitData_halted (m : Buf 21) : (s.transmitData m).halted = s.halted := rfl
@[simp] theorem State.transmitData_outCmd (m : Buf 21) : (s.transmitData m).outCmd = s.outCmd := rfl
@[simp] theorem State.transmitData_outData (m : Buf 21) :
    (s.transmitData m).outData = s.outData ++ [m] := rfl
@[simp] theorem State.transmitData_canCalls (m : Buf 21) :
    (s.transmitData m).canCalls = s.canCalls := rfl
@[simp] theorem State.transmitData_tickMs (m : Buf 21) : (s.transmitData m).tickMs = s.tickMs := rfl
@[simp] theorem State.transmitData_canStatus (m : Buf 21) :
    (s.transmitData m).canStatus = s.canStatus := rfl
@[simp] theorem State.transmitData_script (m : Buf 21) : (s.transmitData m).script = s.script := rfl
@[simp] theorem State.transmitData_draws (m : Buf 21) : (s.transmitData m).draws = s.draws := rfl
@[simp] theorem State.transmitData_result (m : Buf 21) : (s.transmitData m).result = s.result := rfl

/-! ### `State.callTxStart` (R253) -/

@[simp] theorem State.callTxStart_params (f : Frame) : (s.callTxStart f).params = s.params := rfl
@[simp] theorem State.callTxStart_sched (f : Frame) : (s.callTxStart f).sched = s.sched := rfl
@[simp] theorem State.callTxStart_flags (f : Frame) : (s.callTxStart f).flags = s.flags := rfl
@[simp] theorem State.callTxStart_dslot (f : Frame) : (s.callTxStart f).dslot = s.dslot := rfl
@[simp] theorem State.callTxStart_dph (f : Frame) : (s.callTxStart f).dph = s.dph := rfl
@[simp] theorem State.callTxStart_dsnap (f : Frame) : (s.callTxStart f).dsnap = s.dsnap := rfl
@[simp] theorem State.callTxStart_btSjw (f : Frame) : (s.callTxStart f).btSjw = s.btSjw := rfl
@[simp] theorem State.callTxStart_btTs1 (f : Frame) : (s.callTxStart f).btTs1 = s.btTs1 := rfl
@[simp] theorem State.callTxStart_btTs2 (f : Frame) : (s.callTxStart f).btTs2 = s.btTs2 := rfl
@[simp] theorem State.callTxStart_btBrp (f : Frame) : (s.callTxStart f).btBrp = s.btBrp := rfl
@[simp] theorem State.callTxStart_cmS (f : Frame) : (s.callTxStart f).cmS = s.cmS := rfl
@[simp] theorem State.callTxStart_cmL (f : Frame) : (s.callTxStart f).cmL = s.cmL := rfl
@[simp] theorem State.callTxStart_cmO (f : Frame) : (s.callTxStart f).cmO = s.cmO := rfl
@[simp] theorem State.callTxStart_cmdRx (f : Frame) : (s.callTxStart f).cmdRx = s.cmdRx := rfl
@[simp] theorem State.callTxStart_cmdTx (f : Frame) : (s.callTxStart f).cmdTx = s.cmdTx := rfl
@[simp] theorem State.callTxStart_dataRx (f : Frame) : (s.callTxStart f).dataRx = s.dataRx := rfl
@[simp] theorem State.callTxStart_dataTx (f : Frame) : (s.callTxStart f).dataTx = s.dataTx := rfl
@[simp] theorem State.callTxStart_canTxSlot (f : Frame) :
    (s.callTxStart f).canTxSlot = s.canTxSlot := rfl
@[simp] theorem State.callTxStart_canRxSlot (f : Frame) :
    (s.callTxStart f).canRxSlot = s.canRxSlot := rfl
@[simp] theorem State.callTxStart_lastErr (f : Frame) : (s.callTxStart f).lastErr = s.lastErr := rfl
@[simp] theorem State.callTxStart_cmdArmed (f : Frame) :
    (s.callTxStart f).cmdArmed = s.cmdArmed := rfl
@[simp] theorem State.callTxStart_dataArmed (f : Frame) :
    (s.callTxStart f).dataArmed = s.dataArmed := rfl
@[simp] theorem State.callTxStart_canOpenSt (f : Frame) :
    (s.callTxStart f).canOpenSt = s.canOpenSt := rfl
@[simp] theorem State.callTxStart_canTxBusy (f : Frame) : (s.callTxStart f).canTxBusy = true := rfl
@[simp] theorem State.callTxStart_fault (f : Frame) : (s.callTxStart f).fault = s.fault := rfl
@[simp] theorem State.callTxStart_halted (f : Frame) : (s.callTxStart f).halted = s.halted := rfl
@[simp] theorem State.callTxStart_outCmd (f : Frame) : (s.callTxStart f).outCmd = s.outCmd := rfl
@[simp] theorem State.callTxStart_outData (f : Frame) : (s.callTxStart f).outData = s.outData := rfl
@[simp] theorem State.callTxStart_canCalls (f : Frame) :
    (s.callTxStart f).canCalls = s.canCalls ++ [CanCall.txStart f] := rfl
@[simp] theorem State.callTxStart_tickMs (f : Frame) : (s.callTxStart f).tickMs = s.tickMs := rfl
@[simp] theorem State.callTxStart_canStatus (f : Frame) :
    (s.callTxStart f).canStatus = s.canStatus := rfl
@[simp] theorem State.callTxStart_script (f : Frame) : (s.callTxStart f).script = s.script := rfl
@[simp] theorem State.callTxStart_draws (f : Frame) : (s.callTxStart f).draws = s.draws := rfl
@[simp] theorem State.callTxStart_result (f : Frame) : (s.callTxStart f).result = s.result := rfl

/-! ### `State.clear` (R145) -/

@[simp] theorem State.clear_params : (s.clear).params = s.params := rfl
@[simp] theorem State.clear_sched :
    s.clear.sched = ⟨s.params, clearBits s.dsnap s.flags, s.dslot + 1, .sample, 0⟩ := rfl
@[simp] theorem State.clear_flags : (s.clear).flags = clearBits s.dsnap s.flags := rfl
@[simp] theorem State.clear_dslot : (s.clear).dslot = s.dslot + 1 := rfl
@[simp] theorem State.clear_dph : (s.clear).dph = .sample := rfl
@[simp] theorem State.clear_dsnap : (s.clear).dsnap = 0 := rfl
@[simp] theorem State.clear_btSjw : (s.clear).btSjw = s.btSjw := rfl
@[simp] theorem State.clear_btTs1 : (s.clear).btTs1 = s.btTs1 := rfl
@[simp] theorem State.clear_btTs2 : (s.clear).btTs2 = s.btTs2 := rfl
@[simp] theorem State.clear_btBrp : (s.clear).btBrp = s.btBrp := rfl
@[simp] theorem State.clear_cmS : (s.clear).cmS = s.cmS := rfl
@[simp] theorem State.clear_cmL : (s.clear).cmL = s.cmL := rfl
@[simp] theorem State.clear_cmO : (s.clear).cmO = s.cmO := rfl
@[simp] theorem State.clear_cmdRx : (s.clear).cmdRx = s.cmdRx := rfl
@[simp] theorem State.clear_cmdTx : (s.clear).cmdTx = s.cmdTx := rfl
@[simp] theorem State.clear_dataRx : (s.clear).dataRx = s.dataRx := rfl
@[simp] theorem State.clear_dataTx : (s.clear).dataTx = s.dataTx := rfl
@[simp] theorem State.clear_canTxSlot : (s.clear).canTxSlot = s.canTxSlot := rfl
@[simp] theorem State.clear_canRxSlot : (s.clear).canRxSlot = s.canRxSlot := rfl
@[simp] theorem State.clear_lastErr : (s.clear).lastErr = s.lastErr := rfl
@[simp] theorem State.clear_cmdArmed : (s.clear).cmdArmed = s.cmdArmed := rfl
@[simp] theorem State.clear_dataArmed : (s.clear).dataArmed = s.dataArmed := rfl
@[simp] theorem State.clear_canOpenSt : (s.clear).canOpenSt = s.canOpenSt := rfl
@[simp] theorem State.clear_canTxBusy : (s.clear).canTxBusy = s.canTxBusy := rfl
@[simp] theorem State.clear_fault : (s.clear).fault = s.fault := rfl
@[simp] theorem State.clear_halted : (s.clear).halted = s.halted := rfl
@[simp] theorem State.clear_outCmd : (s.clear).outCmd = s.outCmd := rfl
@[simp] theorem State.clear_outData : (s.clear).outData = s.outData := rfl
@[simp] theorem State.clear_canCalls : (s.clear).canCalls = s.canCalls := rfl
@[simp] theorem State.clear_tickMs : (s.clear).tickMs = s.tickMs := rfl
@[simp] theorem State.clear_canStatus : (s.clear).canStatus = s.canStatus := rfl
@[simp] theorem State.clear_script : (s.clear).script = s.script := rfl
@[simp] theorem State.clear_draws : (s.clear).draws = s.draws := rfl
@[simp] theorem State.clear_result : (s.clear).result = s.result := rfl

/-! ### `State.present` -/

@[simp] theorem State.present_params (inp : Input) (rest : List Input) :
    (s.present inp rest).params = s.params := rfl
@[simp] theorem State.present_sched (inp : Input) (rest : List Input) :
    (s.present inp rest).sched = s.sched := rfl
@[simp] theorem State.present_flags (inp : Input) (rest : List Input) :
    (s.present inp rest).flags = s.flags := rfl
@[simp] theorem State.present_dslot (inp : Input) (rest : List Input) :
    (s.present inp rest).dslot = s.dslot := rfl
@[simp] theorem State.present_dph (inp : Input) (rest : List Input) :
    (s.present inp rest).dph = s.dph := rfl
@[simp] theorem State.present_dsnap (inp : Input) (rest : List Input) :
    (s.present inp rest).dsnap = s.dsnap := rfl
@[simp] theorem State.present_btSjw (inp : Input) (rest : List Input) :
    (s.present inp rest).btSjw = s.btSjw := rfl
@[simp] theorem State.present_btTs1 (inp : Input) (rest : List Input) :
    (s.present inp rest).btTs1 = s.btTs1 := rfl
@[simp] theorem State.present_btTs2 (inp : Input) (rest : List Input) :
    (s.present inp rest).btTs2 = s.btTs2 := rfl
@[simp] theorem State.present_btBrp (inp : Input) (rest : List Input) :
    (s.present inp rest).btBrp = s.btBrp := rfl
@[simp] theorem State.present_cmS (inp : Input) (rest : List Input) :
    (s.present inp rest).cmS = s.cmS := rfl
@[simp] theorem State.present_cmL (inp : Input) (rest : List Input) :
    (s.present inp rest).cmL = s.cmL := rfl
@[simp] theorem State.present_cmO (inp : Input) (rest : List Input) :
    (s.present inp rest).cmO = s.cmO := rfl
@[simp] theorem State.present_cmdRx (inp : Input) (rest : List Input) :
    (s.present inp rest).cmdRx = s.cmdRx := rfl
@[simp] theorem State.present_cmdTx (inp : Input) (rest : List Input) :
    (s.present inp rest).cmdTx = s.cmdTx := rfl
@[simp] theorem State.present_dataRx (inp : Input) (rest : List Input) :
    (s.present inp rest).dataRx = s.dataRx := rfl
@[simp] theorem State.present_dataTx (inp : Input) (rest : List Input) :
    (s.present inp rest).dataTx = s.dataTx := rfl
@[simp] theorem State.present_canTxSlot (inp : Input) (rest : List Input) :
    (s.present inp rest).canTxSlot = s.canTxSlot := rfl
@[simp] theorem State.present_canRxSlot (inp : Input) (rest : List Input) :
    (s.present inp rest).canRxSlot = s.canRxSlot := rfl
@[simp] theorem State.present_lastErr (inp : Input) (rest : List Input) :
    (s.present inp rest).lastErr = s.lastErr := rfl
@[simp] theorem State.present_cmdArmed (inp : Input) (rest : List Input) :
    (s.present inp rest).cmdArmed = s.cmdArmed := rfl
@[simp] theorem State.present_dataArmed (inp : Input) (rest : List Input) :
    (s.present inp rest).dataArmed = s.dataArmed := rfl
@[simp] theorem State.present_canOpenSt (inp : Input) (rest : List Input) :
    (s.present inp rest).canOpenSt = s.canOpenSt := rfl
@[simp] theorem State.present_canTxBusy (inp : Input) (rest : List Input) :
    (s.present inp rest).canTxBusy = s.canTxBusy := rfl
@[simp] theorem State.present_fault (inp : Input) (rest : List Input) :
    (s.present inp rest).fault = s.fault := rfl
@[simp] theorem State.present_halted (inp : Input) (rest : List Input) :
    (s.present inp rest).halted = s.halted := rfl
@[simp] theorem State.present_outCmd (inp : Input) (rest : List Input) :
    (s.present inp rest).outCmd = s.outCmd := rfl
@[simp] theorem State.present_outData (inp : Input) (rest : List Input) :
    (s.present inp rest).outData = s.outData := rfl
@[simp] theorem State.present_canCalls (inp : Input) (rest : List Input) :
    (s.present inp rest).canCalls = s.canCalls := rfl
@[simp] theorem State.present_tickMs (inp : Input) (rest : List Input) :
    (s.present inp rest).tickMs = inp.tickMs := rfl
@[simp] theorem State.present_canStatus (inp : Input) (rest : List Input) :
    (s.present inp rest).canStatus = inp.canStatus := rfl
@[simp] theorem State.present_script (inp : Input) (rest : List Input) :
    (s.present inp rest).script = rest := rfl
@[simp] theorem State.present_draws (inp : Input) (rest : List Input) :
    (s.present inp rest).draws = s.draws := rfl
@[simp] theorem State.present_result (inp : Input) (rest : List Input) :
    (s.present inp rest).result = s.result := rfl

/-! ### `State.deliver` -/

@[simp] theorem State.deliver_params (e : Event) : (s.deliver e).params = s.params := rfl
@[simp] theorem State.deliver_sched (e : Event) : (s.deliver e).sched = s.sched := rfl
@[simp] theorem State.deliver_flags (e : Event) : (s.deliver e).flags = s.flags := rfl
@[simp] theorem State.deliver_dslot (e : Event) : (s.deliver e).dslot = s.dslot := rfl
@[simp] theorem State.deliver_dph (e : Event) : (s.deliver e).dph = s.dph := rfl
@[simp] theorem State.deliver_dsnap (e : Event) : (s.deliver e).dsnap = s.dsnap := rfl
@[simp] theorem State.deliver_btSjw (e : Event) : (s.deliver e).btSjw = s.btSjw := rfl
@[simp] theorem State.deliver_btTs1 (e : Event) : (s.deliver e).btTs1 = s.btTs1 := rfl
@[simp] theorem State.deliver_btTs2 (e : Event) : (s.deliver e).btTs2 = s.btTs2 := rfl
@[simp] theorem State.deliver_btBrp (e : Event) : (s.deliver e).btBrp = s.btBrp := rfl
@[simp] theorem State.deliver_cmS (e : Event) : (s.deliver e).cmS = s.cmS := rfl
@[simp] theorem State.deliver_cmL (e : Event) : (s.deliver e).cmL = s.cmL := rfl
@[simp] theorem State.deliver_cmO (e : Event) : (s.deliver e).cmO = s.cmO := rfl
@[simp] theorem State.deliver_cmdRx (e : Event) : (s.deliver e).cmdRx = s.cmdRx := rfl
@[simp] theorem State.deliver_cmdTx (e : Event) : (s.deliver e).cmdTx = s.cmdTx := rfl
@[simp] theorem State.deliver_dataRx (e : Event) : (s.deliver e).dataRx = s.dataRx := rfl
@[simp] theorem State.deliver_dataTx (e : Event) : (s.deliver e).dataTx = s.dataTx := rfl
@[simp] theorem State.deliver_canTxSlot (e : Event) : (s.deliver e).canTxSlot = s.canTxSlot := rfl
@[simp] theorem State.deliver_canRxSlot (e : Event) : (s.deliver e).canRxSlot = s.canRxSlot := rfl
@[simp] theorem State.deliver_lastErr (e : Event) : (s.deliver e).lastErr = s.lastErr := rfl
@[simp] theorem State.deliver_cmdArmed (e : Event) : (s.deliver e).cmdArmed = s.cmdArmed := rfl
@[simp] theorem State.deliver_dataArmed (e : Event) : (s.deliver e).dataArmed = s.dataArmed := rfl
@[simp] theorem State.deliver_canOpenSt (e : Event) : (s.deliver e).canOpenSt = s.canOpenSt := rfl
@[simp] theorem State.deliver_canTxBusy (e : Event) : (s.deliver e).canTxBusy = s.canTxBusy := rfl
@[simp] theorem State.deliver_fault (e : Event) : (s.deliver e).fault = s.fault := rfl
@[simp] theorem State.deliver_halted (e : Event) : (s.deliver e).halted = s.halted := rfl
@[simp] theorem State.deliver_outCmd (e : Event) : (s.deliver e).outCmd = s.outCmd := rfl
@[simp] theorem State.deliver_outData (e : Event) : (s.deliver e).outData = s.outData := rfl
@[simp] theorem State.deliver_canCalls (e : Event) : (s.deliver e).canCalls = s.canCalls := rfl
@[simp] theorem State.deliver_tickMs (e : Event) : (s.deliver e).tickMs = s.tickMs := rfl
@[simp] theorem State.deliver_canStatus (e : Event) : (s.deliver e).canStatus = s.canStatus := rfl
@[simp] theorem State.deliver_script (e : Event) :
    (s.deliver e).script
      = { tickMs := s.tickMs, canStatus := s.canStatus, event := e } :: s.script := rfl
@[simp] theorem State.deliver_draws (e : Event) : (s.deliver e).draws = s.draws := rfl
@[simp] theorem State.deliver_result (e : Event) : (s.deliver e).result = s.result := rfl

end Sys2Proof.Machine
end

