-- ==== Sys2Proof/Laws/Ops.lean ====
section
/-! SUPPORT. What the shared operations can do, each said once: the lemmas that later proofs cite
instead of unfolding an operation. -/

namespace Sys2Proof.Machine

open Sys2Proof

/-! ### Enabling -/

/-- A step whose condition holds in a core that is not halted has its effect. -/
theorem ifEnabled_enabled {s t : State} {b : Bool} (hh : s.halted = false) (hb : b = true) :
    s.ifEnabled b t = .next t := by
  simp [State.ifEnabled, hh, hb]

/-- A step that is not enabled leaves the state as it was. -/
theorem ifEnabled_disabled {s t : State} {b : Bool} (h : s.halted = true ∨ b = false) :
    s.ifEnabled b t = .next s := by
  rcases h with h | h <;> simp [State.ifEnabled, h]

/-- All an enabled-or-not step can answer: its effect, or the state as it was. -/
theorem ifEnabled_next {s t u : State} {b : Bool} (h : s.ifEnabled b t = .next u) :
    (s.halted = false ∧ b = true ∧ u = t) ∨ ((s.halted = true ∨ b = false) ∧ u = s) := by
  unfold State.ifEnabled at h
  cases hs : s.halted <;> cases b <;> simp_all

/-- All taking a well-formed command can answer. -/
theorem takeCommand_next {s u : State} {msg : Buf 16} {g : State → State}
    (h : s.takeCommand msg g = .next u) :
    (s.halted = false ∧ s.cmdArmed = true ∧ u = g { s with cmdArmed := false, cmdRx := msg })
      ∨ ((s.halted = true ∨ s.cmdArmed = false) ∧ u = s) :=
  ifEnabled_next h

/-! ### Conditions -/

/-- No condition touches anything but its own latches, buffer, code and flag (R280): in particular
not the descriptor, the slots, the outputs or the drain. -/
theorem signal_frame (s : State) (k : Condition) :
    (s.signal k).params = s.params ∧ (s.signal k).dslot = s.dslot ∧ (s.signal k).dph = s.dph
      ∧ (∀ i, (s.signal k).dsnap.getLsbD i = s.dsnap.getLsbD i) ∧ (s.signal k).cmdTx = s.cmdTx
      ∧ (s.signal k).canTxSlot = s.canTxSlot ∧ (s.signal k).canRxSlot = s.canRxSlot
      ∧ (s.signal k).cmdArmed = s.cmdArmed ∧ (s.signal k).dataArmed = s.dataArmed
      ∧ (s.signal k).outCmd = s.outCmd ∧ (s.signal k).outData = s.outData
      ∧ (s.signal k).canCalls = s.canCalls := by
  cases k <;> exact ⟨rfl, rfl, rfl, fun _ => rfl, rfl, rfl, rfl, rfl, rfl, rfl, rfl, rfl⟩

/-! ### The flag word -/

@[simp] theorem flagBit_getLsbD (c : Params) (f : Flag) (i : Nat) :
    (flagBit c f).getLsbD i = decide (i = (c.flagIx f).val) := by
  have := (c.flagIx f).isLt
  simp only [flagBit, BitVec.getLsbD_shiftLeft, BitVec.getLsbD_one]
  by_cases h : i = (c.flagIx f).val
  · subst h; simp; omega
  · simp [h]; omega

/-- `RAISE(f)` sets the one bit `f` (R140, R67). -/
theorem raiseBit_getLsbD (c : Params) (f : Flag) (w : FlagWord c) (i : Nat) :
    (raiseBit c f w).getLsbD i = (w.getLsbD i || decide (i = (c.flagIx f).val)) := by
  simp [raiseBit]

/-- A clear clears the bits of its snapshot (R145, R67). -/
theorem clearBits_getLsbD {n : Nat} (snap w : BitVec n) (i : Nat) :
    (clearBits snap w).getLsbD i = (w.getLsbD i && !snap.getLsbD i) := by
  by_cases h : i < n
  · simp [clearBits, h]
  · have : w.getLsbD i = false := BitVec.getLsbD_of_ge _ _ (by omega)
    simp [clearBits, this]

/-- The snapshot of a flag that is set is its bit (R143). -/
theorem snapshot_set {c : Params} {f : Flag} {w : FlagWord c} (h : hasFlag c w f = true) :
    snapshot c f w = flagBit c f := by
  refine BitVec.eq_of_getLsbD_eq fun i _ => ?_
  simp only [snapshot, BitVec.getLsbD_and, flagBit_getLsbD]
  by_cases e : i = (c.flagIx f).val
  · subst e; simpa [hasFlag] using h
  · simp [e]

/-- The snapshot of a flag that is not set is 0 (R143). -/
theorem snapshot_unset {c : Params} {f : Flag} {w : FlagWord c} (h : hasFlag c w f = false) :
    snapshot c f w = 0 := by
  refine BitVec.eq_of_getLsbD_eq fun i _ => ?_
  simp only [snapshot, BitVec.getLsbD_and, flagBit_getLsbD]
  by_cases e : i = (c.flagIx f).val
  · subst e; simpa [hasFlag] using h
  · simp [e]

theorem flagBit_ne_zero (c : Params) (f : Flag) : flagBit c f ≠ 0 := by
  intro h
  have hb := flagBit_getLsbD c f (c.flagIx f).val
  rw [h] at hb
  simp at hb

/-- Under well-formed parameters two flags have the same bit only if they are the same flag
(R6). -/
theorem flagIx_injective {c : Params} (h : c.wf = true) {f g : Flag}
    (e : (c.flagIx f).val = (c.flagIx g).val) : f = g := by
  have e' : c.flagIx f = c.flagIx g := Fin.ext e
  have hn : (Flag.all.map c.flagIx).Nodup := by
    simp only [Params.wf, Bool.and_eq_true, decide_eq_true_eq] at h
    exact h.1.1.1.1.1.1.1.1.1.1.1.1.1.1.1.1
  simp only [Flag.all, List.map_cons, List.map_nil, List.nodup_cons, List.mem_cons,
    List.not_mem_nil, or_false, not_or] at hn
  cases f <;> cases g <;> first | rfl | (simp_all)

/-- Raising `f` changes the presence of no other flag. -/
theorem hasFlag_raiseBit {c : Params} (h : c.wf = true) (f g : Flag) (w : FlagWord c) :
    hasFlag c (raiseBit c f w) g = (hasFlag c w g || decide (g = f)) := by
  simp only [hasFlag, raiseBit_getLsbD]
  congr 1
  by_cases e : g = f
  · subst e; simp
  · have : (c.flagIx g).val ≠ (c.flagIx f).val := fun he => e (flagIx_injective h he)
    simp [e, this]

/-- The reserved bits are 0 when every bit that is set is the bit of a flag (R22). -/
theorem reservedZero_iff {c : Params} {w : FlagWord c} :
    reservedZero c w ↔ ∀ i, w.getLsbD i = true → ∃ f, i = (c.flagIx f).val := by
  have hm : ∀ i, (flagMask c).getLsbD i = true ↔ ∃ f, i = (c.flagIx f).val := fun i => by
    simp only [flagMask, BitVec.getLsbD_or, flagBit_getLsbD, Bool.or_eq_true, decide_eq_true_eq]
    exact ⟨by tauto, by rintro ⟨f, h⟩; cases f <;> tauto⟩
  constructor
  · intro h i hi
    have hw := congrArg (fun v : BitVec c.flagW => v.getLsbD i) h
    simp only [BitVec.getLsbD_and, BitVec.getLsbD_not, BitVec.lt_of_getLsbD hi, hi] at hw
    exact (hm i).mp (by simpa using hw)
  · intro h
    refine BitVec.eq_of_getLsbD_eq fun i hi => ?_
    rw [BitVec.getLsbD_and, BitVec.getLsbD_not]
    cases hi : w.getLsbD i
    · simp
    · simp [(hm i).mpr (h i hi)]

/-- A raise leaves the reserved bits 0 (R22). -/
theorem reservedZero_raiseBit {c : Params} {w : FlagWord c} (f : Flag) (h : reservedZero c w) :
    reservedZero c (raiseBit c f w) := by
  rw [reservedZero_iff] at h ⊢
  intro i hi
  rw [raiseBit_getLsbD, Bool.or_eq_true, decide_eq_true_eq] at hi
  exact hi.elim (h i) fun e => ⟨f, e⟩

/-- A clear leaves the reserved bits 0 (R22). -/
theorem reservedZero_clearBits {c : Params} {w : FlagWord c} (m : FlagWord c)
    (h : reservedZero c w) : reservedZero c (clearBits m w) := by
  rw [reservedZero_iff] at h ⊢
  intro i hi
  rw [clearBits_getLsbD, Bool.and_eq_true] at hi
  exact h i hi.1

/-- A word with its reserved bits 0 and none of the six flags is 0. -/
theorem eq_zero_of_no_flag {c : Params} {w : FlagWord c} (h : reservedZero c w)
    (hn : ∀ f, hasFlag c w f = false) : w = 0 := by
  refine BitVec.eq_of_getLsbD_eq fun i _ => ?_
  rw [show (0 : FlagWord c).getLsbD i = false by simp]
  refine Bool.eq_false_iff.mpr fun hi => ?_
  obtain ⟨f, rfl⟩ := reservedZero_iff.mp h i hi
  exact absurd hi (Bool.eq_false_iff.mp (hn f))

/-- Clearing the bit of `f` changes the presence of no other flag. -/
theorem hasFlag_clearBits {c : Params} (h : c.wf = true) (f g : Flag) (w : FlagWord c) :
    hasFlag c (clearBits (flagBit c f) w) g = (hasFlag c w g && !decide (g = f)) := by
  simp only [hasFlag, clearBits_getLsbD, flagBit_getLsbD]
  congr 2
  by_cases e : g = f
  · subst e; simp
  · have : (c.flagIx g).val ≠ (c.flagIx f).val := fun he => e (flagIx_injective h he)
    simp [e, this]

/-! ### The drain -/

/-- All `D_SAMPLE`'s update can be (R143). -/
theorem sample_cases (s : State) :
    (hasFlag s.params s.flags (prio s.dslot) = true
        ∧ s.sample = { s with dsnap := flagBit s.params (prio s.dslot), dph := .handle })
      ∨ (hasFlag s.params s.flags (prio s.dslot) = false
        ∧ s.sample = { s with dslot := s.dslot + 1, dph := .sample, dsnap := 0 }) := by
  cases h : hasFlag s.params s.flags (prio s.dslot)
  · right; simp [State.sample, snapshot_unset h]
  · left
    refine ⟨rfl, ?_⟩
    simp only [State.sample, snapshot_set h]
    exact if_neg (flagBit_ne_zero _ _)

/-! ### Calls and responses -/

/-- The response that is built is the one of R96. -/
theorem responseMsg_eq (s : State) (ec : Byte) : responseMsg s ec = answer s (respStatus ec) := by
  refine buf_ext fun i hi => ?_
  unfold responseMsg answer
  interval_cases i <;> simp

/-- `SEND_RESPONSE`'s whole effect (R210). -/
theorem sendResponse_eq (s : State) (ec : Byte) :
    s.sendResponse ec = s.transmitResponse (answer s (respStatus ec)) := by
  rw [State.sendResponse, responseMsg_eq]

/-- `CAN_OPEN`'s whole effect on the core (R251). -/
theorem callOpen_eq (s : State) (a : OpenArgs) :
    s.callOpen a
      = { s with canCalls := s.canCalls ++ [CanCall.open_ a], canOpenSt := s.canStatus = 0#8 } := by
  by_cases h : s.canStatus = 0#8 <;> simp [State.callOpen, State.signal, Config.stOk, h]

/-- `CAN_CLOSE`'s whole effect on the core (R252). -/
theorem callClose_eq (s : State) :
    s.callClose = { s with canCalls := s.canCalls ++ [CanCall.close], canOpenSt := false } := by
  simp [State.callClose, State.signal]

/-- The relay of a received frame (R228). -/
theorem emitCanFrame_eq (s : State) :
    s.emitCanFrame = s.transmitData (canMsg s.params s.canRxSlot s.tickMs) := by
  rw [State.emitCanFrame, doutWrite_eq]; rfl

/-- The report of an error code (R230). -/
theorem emitCanError_eq (s : State) :
    s.emitCanError = s.transmitData (errMsg s.params s.lastErr s.tickMs) := by
  rw [State.emitCanError, doutWrite_eq]; rfl

/-- `CMD_TX[5..14] <- p`, the other six bytes kept. -/
theorem writeSlice_payload (tx : Buf 16) (p : Buf 10) : writeSlice tx 5 p = withPayload tx p := by
  refine buf_ext fun i hi => ?_
  rw [writeSlice_getElem _ _ _ _ hi]
  unfold withPayload
  interval_cases i <;> simp [byteAt]

/-- The two writes of a version payload are one (R195). -/
theorem versionPayload_eq (tx : Buf 16) :
    writeSlice (writeSlice tx 5 (zeros 10)) 5 versionBytes = withPayload tx versionPayload := by
  refine buf_ext fun i hi => ?_
  simp only [writeSlice_getElem _ _ _ _ hi, byteAt, withPayload]
  interval_cases i <;> simp [versionBytes, versionPayload, Config.fwVersion, Config.hwVersion,
    writeSlice, byteAt, zeros]

/-- Accepting a version query, whole (R195). -/
theorem acceptVersion_eq (s : State) :
    s.acceptVersion = { s with
      cmdTx := withPayload s.cmdTx versionPayload
      flags := raiseBit s.params .version s.flags } := by
  simp only [State.acceptVersion, State.raise, State.clearPayload, versionPayload_eq]

/-- Accepting an OPEN, whole (R196, R170). -/
theorem acceptOpen_eq (s : State) (p : Buf 10) :
    s.acceptOpen p = { s.btDecode p with
      cmdTx := withPayload s.cmdTx (zeros 10)
      flags := raiseBit s.params .open_ s.flags } := by
  simp only [State.acceptOpen, State.raise, State.clearPayload, State.btDecode, writeSlice_payload]

/-- Accepting a CLOSE, whole (R197). -/
theorem acceptClose_eq (s : State) :
    s.acceptClose = { s with
      cmdTx := withPayload s.cmdTx (zeros 10)
      flags := raiseBit s.params .close s.flags } := by
  simp only [State.acceptClose, State.raise, State.clearPayload, writeSlice_payload]

/-! ### Parsing -/

/-- The dispatch of R194 on a message of code `code` is the effect of its row. -/
theorem dispatch_cmdMsg (s : State) (c : Params) (code : Byte) (a : CmdArgs) :
    s.dispatch (cmdMsg c code a) =
      if code = 12#8 then s.acceptVersion
      else if code = 2#8 then s.acceptOpen a.payload
      else if code = 3#8 then s.acceptClose
      else s.signal .unrecognizedCommand := by
  have hp : slice (cmdMsg c code a) 5 10 = a.payload := by
    have := congrArg CmdArgs.payload (cmdArgsOf_cmdMsg c code a)
    simpa [cmdArgsOf] using this
  simp only [State.dispatch, hp]
  rfl

/-- A request row, whichever its code, is the delivery of its message followed by the dispatch on its
code (R190, R194). -/
theorem exec_cmdRow (code : Byte) (a : CmdArgs) (s : State) :
    exec (cmdRow code a) s = s.takeCommand (cmdMsg s.params code a) fun t =>
      if code = 12#8 then t.acceptVersion
      else if code = 2#8 then t.acceptOpen a.payload
      else if code = 3#8 then t.acceptClose
      else t.signal .unrecognizedCommand := by
  have acc : ∀ (i : Instr) (f : State → State) {g : State → State},
      exec i s = s.takeCommand (cmdMsg s.params code a) f → f = g →
      exec i s = s.takeCommand (cmdMsg s.params code a) g := by
    rintro i f _ h rfl; exact h
  unfold cmdRow
  by_cases h12 : code = 12#8
  · rw [if_pos h12]
    exact acc _ State.acceptVersion (by rw [h12]; rfl) (funext fun t => (if_pos h12).symm)
  by_cases h2 : code = 2#8
  · rw [if_neg h12, if_pos h2]
    exact acc _ (State.acceptOpen · a.payload) (by rw [h2]; rfl)
      (funext fun t => by rw [if_neg h12, if_pos h2])
  by_cases h3 : code = 3#8
  · rw [if_neg h12, if_neg h2, if_pos h3]
    exact acc _ State.acceptClose (by rw [h3]; rfl)
      (funext fun t => by rw [if_neg h12, if_neg h2, if_pos h3])
  rw [if_neg h12, if_neg h2, if_neg h3]
  refine acc _ (State.signal · .unrecognizedCommand) ?_
    (funext fun t => by rw [if_neg h12, if_neg h2, if_neg h3])
  repeat' split
  all_goals first | rfl | (rename_i h; rw [h]; rfl)

/-- Parsing a well-framed command message (R191). -/
theorem parseCommand_cmdMsg (s : State) (code : Byte) (a : CmdArgs) :
    s.parseCommand (cmdMsg s.params code a).toList
      = ({ s with cmdRx := cmdMsg s.params code a }).dispatch (cmdMsg s.params code a) := by
  simp [State.parseCommand, cmdFrame?_cmdMsg]

/-- Parsing a packet that fails one of the three checks (R191, R281). -/
theorem parseCommand_bad {s : State} {pkt : Packet} (h : cmdFrame? s.params pkt = none) :
    s.parseCommand pkt = s.signal .cmdFramingError := by
  simp [State.parseCommand, h]

/-- Parsing a data packet that fails one of the three checks (R221, R283). -/
theorem parseFrame_bad {s : State} {pkt : Packet} (h : dinFrame? s.params pkt = none) :
    s.parseFrame pkt = s.signal .dataFramingError := by
  simp [State.parseFrame, h]

/-! ### The handlers, whole -/

/-- H_VERSION (R212). -/
theorem handlerBody_zero (s : State) :
    handlerBody 0 s = s.transmitResponse (answer s 0x00#8) := by
  show handleVersion s = _
  rw [handleVersion, sendResponse_eq]; rfl

/-- H_OPEN (R213). -/
theorem handlerBody_one (s : State) :
    handlerBody 1 s = State.transmitResponse
      { s with
        canCalls := s.canCalls ++ [CanCall.open_ (openArgs s)]
        canOpenSt := s.canStatus = 0#8 }
      (answer s (respStatus s.canStatus)) := by
  show handleOpen s = _
  rw [handleOpen, sendResponse_eq, callOpen_eq]; rfl

/-- H_CLOSE (R214). -/
theorem handlerBody_two (s : State) :
    handlerBody 2 s = State.transmitResponse
      { s with canCalls := s.canCalls ++ [CanCall.close], canOpenSt := false }
      (answer s (respStatus (closeStatus s))) := by
  show handleClose s = _
  rw [handleClose, sendResponse_eq, callClose_eq]; rfl

/-- H_TRANSMIT (R225). -/
theorem handlerBody_three (s : State) : handlerBody 3 s = s.callTxStart s.canTxSlot := rfl

/-- H_ERROR (R230). -/
theorem handlerBody_four (s : State) :
    handlerBody 4 s = s.transmitData (errMsg s.params s.lastErr s.tickMs) := by
  show s.emitCanError = _
  exact emitCanError_eq s

/-- H_RXRDY (R228). -/
theorem handlerBody_five (s : State) :
    handlerBody 5 s = s.transmitData (canMsg s.params s.canRxSlot s.tickMs) := by
  show s.emitCanFrame = _
  exact emitCanFrame_eq s

/-- All a handler can write (R144, R229, R297): its two message buffers, the two sequences it emits to,
the call it makes, and the latches of the command channel and of the collaborator. -/
theorem handlerBody_eq (k : Fin 6) (s : State) :
    ∃ cmdTx outCmd cmdArmed dataTx outData canCalls canOpenSt canTxBusy,
      handlerBody k s = { s with
        cmdTx := cmdTx, outCmd := outCmd, cmdArmed := cmdArmed, dataTx := dataTx,
        outData := outData, canCalls := canCalls, canOpenSt := canOpenSt, canTxBusy := canTxBusy } := by
  match k with
  | 0 => exact ⟨_, _, _, _, _, _, _, _, handlerBody_zero s⟩
  | 1 => exact ⟨_, _, _, _, _, _, _, _, handlerBody_one s⟩
  | 2 => exact ⟨_, _, _, _, _, _, _, _, handlerBody_two s⟩
  | 3 => exact ⟨_, _, _, _, _, _, _, _, handlerBody_three s⟩
  | 4 => exact ⟨_, _, _, _, _, _, _, _, handlerBody_four s⟩
  | 5 => exact ⟨_, _, _, _, _, _, _, _, handlerBody_five s⟩

/-- A handler reads nothing of the drain's position: it writes the same from another one (R144). -/
theorem handlerBody_drain (k : Fin 6) (s : State) (d : Fin 6) (p : Phase) (n : FlagWord s.params) :
    ∃ cmdTx outCmd cmdArmed dataTx outData canCalls canOpenSt canTxBusy,
      handlerBody k s = { s with
        cmdTx := cmdTx, outCmd := outCmd, cmdArmed := cmdArmed, dataTx := dataTx,
        outData := outData, canCalls := canCalls, canOpenSt := canOpenSt, canTxBusy := canTxBusy }
      ∧ handlerBody k { s with dslot := d, dph := p, dsnap := n } = { s with
        dslot := d, dph := p, dsnap := n,
        cmdTx := cmdTx, outCmd := outCmd, cmdArmed := cmdArmed, dataTx := dataTx,
        outData := outData, canCalls := canCalls, canOpenSt := canOpenSt, canTxBusy := canTxBusy } := by
  match k with
  | 0 => exact ⟨_, _, _, _, _, _, _, _, handlerBody_zero s, handlerBody_zero _⟩
  | 1 => exact ⟨_, _, _, _, _, _, _, _, handlerBody_one s, handlerBody_one _⟩
  | 2 => exact ⟨_, _, _, _, _, _, _, _, handlerBody_two s, handlerBody_two _⟩
  | 3 => exact ⟨_, _, _, _, _, _, _, _, handlerBody_three s, handlerBody_three _⟩
  | 4 => exact ⟨_, _, _, _, _, _, _, _, handlerBody_four s, handlerBody_four _⟩
  | 5 => exact ⟨_, _, _, _, _, _, _, _, handlerBody_five s, handlerBody_five _⟩

/-- What no handler touches (R144, R229, R297): the parameters, `FLAGS`, the drain's position, the
receive buffers and slots, the descriptor, `LAST_ERR`, the data latch, the condition latches and the
environment's levels and script. -/
theorem handlerBody_frame (k : Fin 6) (s : State) :
    (handlerBody k s).params = s.params
      ∧ (∀ i, (handlerBody k s).flags.getLsbD i = s.flags.getLsbD i)
      ∧ (handlerBody k s).dslot = s.dslot ∧ (handlerBody k s).dph = s.dph
      ∧ (∀ i, (handlerBody k s).dsnap.getLsbD i = s.dsnap.getLsbD i)
      ∧ (handlerBody k s).btSjw = s.btSjw
      ∧ (handlerBody k s).btTs1 = s.btTs1 ∧ (handlerBody k s).btTs2 = s.btTs2
      ∧ (handlerBody k s).btBrp = s.btBrp ∧ (handlerBody k s).cmS = s.cmS
      ∧ (handlerBody k s).cmL = s.cmL ∧ (handlerBody k s).cmO = s.cmO
      ∧ (handlerBody k s).cmdRx = s.cmdRx ∧ (handlerBody k s).dataRx = s.dataRx
      ∧ (handlerBody k s).canTxSlot = s.canTxSlot ∧ (handlerBody k s).canRxSlot = s.canRxSlot
      ∧ (handlerBody k s).lastErr = s.lastErr ∧ (handlerBody k s).dataArmed = s.dataArmed
      ∧ (handlerBody k s).fault = s.fault ∧ (handlerBody k s).halted = s.halted
      ∧ (handlerBody k s).tickMs = s.tickMs ∧ (handlerBody k s).canStatus = s.canStatus
      ∧ (handlerBody k s).script = s.script ∧ (handlerBody k s).draws = s.draws
      ∧ (handlerBody k s).result = s.result := by
  obtain ⟨_, _, _, _, _, _, _, _, h⟩ := handlerBody_eq k s
  rw [h]
  simp

/-- No handler touches the scheduler's part of the state (R144, R297). -/
@[simp] theorem handlerBody_sched (k : Fin 6) (s : State) : (handlerBody k s).sched = s.sched := by
  obtain ⟨_, _, _, _, _, _, _, _, h⟩ := handlerBody_eq k s
  rw [h]; rfl

/-- `D_HANDLE` moves the phase and touches nothing else of the scheduler's part (R144). -/
theorem handle_sched (s : State) : s.handle.sched = { s.sched with dph := .clear } :=
  congrArg (fun v : SchedView => ({ v with dph := .clear } : SchedView)) (handlerBody_sched s.dslot s)

/-- All a parse of a command packet can do to the scheduler's part: raise one of the three command
flags, or nothing (R191, R194). -/
theorem parseCommand_sched (s : State) (pkt : Packet) :
    (s.parseCommand pkt).sched = s.sched
      ∨ ∃ f, produces f (.usbCmdOut pkt) = true
        ∧ (s.parseCommand pkt).sched = { s.sched with flags := raiseBit s.params f s.flags } := by
  unfold State.parseCommand
  split
  · exact .inl rfl
  · unfold State.dispatch
    split_ifs
    · exact .inr ⟨.version, rfl, by rw [acceptVersion_eq]; rfl⟩
    · exact .inr ⟨.open_, rfl, by rw [acceptOpen_eq]; rfl⟩
    · exact .inr ⟨.close, rfl, by rw [acceptClose_eq]; rfl⟩
    · exact .inl rfl

/-- All a parse of a data packet can do to the scheduler's part: raise TRANSMIT, or nothing (R221,
R222). -/
theorem parseFrame_sched (s : State) (pkt : Packet) :
    (s.parseFrame pkt).sched = s.sched
      ∨ (s.parseFrame pkt).sched = { s.sched with flags := raiseBit s.params .transmit s.flags } := by
  unfold State.parseFrame
  split
  · exact .inl rfl
  · exact .inr rfl

end Sys2Proof.Machine
end

