-- ==== Sys2Proof/Laws/Exec.lean ====
section
/-! SUPPORT. What `exec` and `step` can answer, each said once: every instruction leaves the state as
it was or makes its one update, and every step runs one instruction that an agent can take. -/

namespace Sys2Proof.Machine

open Sys2Proof

/-- The update an instruction makes when it is enabled. -/
def update : Instr → State → State
  | .getSoftwHardwVer a, s =>
    State.acceptVersion { s with cmdArmed := false, cmdRx := cmdMsg s.params 12#8 a }
  | .cmdOpen a, s =>
    State.acceptOpen { s with cmdArmed := false, cmdRx := cmdMsg s.params 2#8 a } a.payload
  | .cmdClose a, s =>
    State.acceptClose { s with cmdArmed := false, cmdRx := cmdMsg s.params 3#8 a }
  | .cmdReset a, s => { s with cmdArmed := false, cmdRx := cmdMsg s.params 1#8 a, fault := true }
  | .setSpeed a, s => { s with cmdArmed := false, cmdRx := cmdMsg s.params 4#8 a, fault := true }
  | .setMaskFilter a, s =>
    { s with cmdArmed := false, cmdRx := cmdMsg s.params 5#8 a, fault := true }
  | .getStatus a, s => { s with cmdArmed := false, cmdRx := cmdMsg s.params 6#8 a, fault := true }
  | .getStatistics a, s =>
    { s with cmdArmed := false, cmdRx := cmdMsg s.params 7#8 a, fault := true }
  | .getSerial a, s => { s with cmdArmed := false, cmdRx := cmdMsg s.params 8#8 a, fault := true }
  | .getSoftwVer a, s => { s with cmdArmed := false, cmdRx := cmdMsg s.params 9#8 a, fault := true }
  | .getHardwVer a, s =>
    { s with cmdArmed := false, cmdRx := cmdMsg s.params 10#8 a, fault := true }
  | .resetTimestamp a, s =>
    { s with cmdArmed := false, cmdRx := cmdMsg s.params 11#8 a, fault := true }
  | .cmdUnrecognized code a, s =>
    { s with cmdArmed := false, cmdRx := cmdMsg s.params code a, fault := true }
  | .cmdResponse command a, s => s.transmitResponse (cmdMsg s.params command a)
  | .dataIn fl idw dlc data, s =>
    State.acceptFrame { s with dataArmed := false, dataRx := dinMsg s.params fl idw dlc data }
      fl idw dlc data
  | .dataOutCan fl idw dlc data ts, s => s.transmitData (dout21 s.params 0#8 fl idw dlc data ts)
  | .dataOutErr code ts, s => s.transmitData (errMsg s.params code ts)
  | .raise f, s => s.raise f
  | .dSample, s => s.sample
  | .dHandle, s => s.handle
  | .dClear, s => s.clear
  | .hVersion, s => handlerBody 0 s
  | .hOpen, s => handlerBody 1 s
  | .hClose, s => handlerBody 2 s
  | .hTransmit, s => handlerBody 3 s
  | .hError, s => handlerBody 4 s
  | .hRxrdy, s => handlerBody 5 s
  | .btDecode p, s => s.btDecode p
  | .btCompute, s => { s with result := .fields (regFields s) }
  | .sendResponse ec, s => s.transmitResponse (answer s (respStatus ec))
  | .errMap e, s => { s with result := .code (errCode e) }
  | .usbCmdOut pkt, s => State.parseCommand { s with cmdArmed := false } pkt
  | .usbDataOut pkt, s => State.parseFrame { s with dataArmed := false } pkt
  | .usbInit, s => { s with cmdArmed := true, dataArmed := true }
  | .usbDeinit, s => { s with cmdArmed := false, dataArmed := false }
  | .canOpen a, s =>
    { s with
      canCalls := s.canCalls ++ [CanCall.open_ a]
      canOpenSt := s.canStatus = 0#8
      result := .status s.canStatus }
  | .canClose, s =>
    { s with
      canCalls := s.canCalls ++ [CanCall.close]
      canOpenSt := false
      result := .status (closeStatus s) }
  | .canTxStart f, s => s.callTxStart f
  | .canRxDone f, s => s.receive f
  | .canErr e, s => ({ s with lastErr := errCode e }).raise .error
  | .canTxDone, s => { s with canTxBusy := false, dataArmed := true }
  | .procException, s => { s with fault := true, halted := true }
  | .resetEvent, s =>
    { State.reset with
      params := s.params
      flags := 0
      dsnap := 0
      tickMs := s.tickMs
      canStatus := s.canStatus
      script := s.script
      draws := s.draws }

/-- The condition in an instruction's own rule, beside `HALTED = 0` (R36, R190, R220, R143 to R145);
a processor exception and reset have none, and are not stopped by `HALTED` either (R287, R320). -/
def enabled : Instr → State → Bool
  | .getSoftwHardwVer _, s | .cmdOpen _, s | .cmdClose _, s | .cmdReset _, s | .setSpeed _, s
  | .setMaskFilter _, s | .getStatus _, s | .getStatistics _, s | .getSerial _, s
  | .getSoftwVer _, s | .getHardwVer _, s | .resetTimestamp _, s | .cmdUnrecognized _ _, s
  | .usbCmdOut _, s => !s.halted && s.cmdArmed
  | .dataIn _ _ _ _, s | .usbDataOut _, s => !s.halted && s.dataArmed
  | .dSample, s => !s.halted && s.dph = .sample
  | .dHandle, s => !s.halted && s.dph = .handle
  | .dClear, s => !s.halted && s.dph = .clear
  | .procException, _ | .resetEvent, _ => true
  | .cmdResponse _ _, s | .dataOutCan _ _ _ _ _, s | .dataOutErr _ _, s | .raise _, s => !s.halted
  | .hVersion, s | .hOpen, s | .hClose, s | .hTransmit, s | .hError, s | .hRxrdy, s => !s.halted
  | .btDecode _, s | .btCompute, s | .sendResponse _, s | .errMap _, s => !s.halted
  | .usbInit, s | .usbDeinit, s | .canOpen _, s | .canClose, s | .canTxStart _, s => !s.halted
  | .canRxDone _, s | .canErr _, s | .canTxDone, s => !s.halted

theorem ifEnabled_eq (s t : State) (b : Bool) :
    s.ifEnabled b t = .next (if (!s.halted && b) = true then t else s) := rfl

/-- All `exec` can answer: a reception of a frame outside the interface is refused; every other
instruction makes its update if it is enabled, and leaves the state as it was if not. -/
theorem exec_eq (i : Instr) (s : State) (h : ∀ f, i = .canRxDone f → f.inInterface = true) :
    exec i s = .next (if enabled i s = true then update i s else s) := by
  cases i
  case canRxDone f =>
    have hf := h f rfl
    show (if f.inInterface then _ else _) = _
    rw [if_pos hf, ifEnabled_eq]; simp [enabled, update]
  case procException => rfl
  case resetEvent => rfl
  case sendResponse ec =>
    show s.ifEnabled true _ = _
    rw [ifEnabled_eq, sendResponse_eq]; simp [enabled, update]
  case dataOutCan fl idw dlc data ts =>
    show s.ifEnabled true _ = _
    rw [ifEnabled_eq, doutWrite_eq]; simp [enabled, update, Config.typeCan]
  case dataOutErr code ts =>
    show s.ifEnabled true _ = _
    rw [ifEnabled_eq, doutWrite_eq]; simp [enabled, update]; rfl
  case canOpen a =>
    show s.ifEnabled true _ = _
    rw [ifEnabled_eq, callOpen_eq]; simp [enabled, update]
  case canClose =>
    show s.ifEnabled true _ = _
    rw [ifEnabled_eq, callClose_eq]; simp [enabled, update]
  all_goals first
    | exact ifEnabled_eq s _ _
    | (refine (ifEnabled_eq s _ true).trans ?_; simp only [Bool.and_true]; rfl)

/-- `exec` never faults, and answers a next state in one of two ways. -/
theorem exec_next {i : Instr} {s t : State} (h : exec i s = .next t) :
    (enabled i s = true ∧ t = update i s) ∨ (enabled i s = false ∧ t = s) := by
  by_cases hf : ∀ f, i = .canRxDone f → f.inInterface = true
  · rw [exec_eq i s hf] at h
    cases he : enabled i s <;> simp [he] at h
    · exact .inr ⟨rfl, h.symm⟩
    · exact .inl ⟨rfl, h.symm⟩
  · push Not at hf
    obtain ⟨f, rfl, hf⟩ := hf
    have : exec (.canRxDone f) s = .refused .frameOutsideInterface := by
      show (if f.inInterface then _ else _) = _
      rw [if_neg hf]
    rw [this] at h; cases h

/-- All an enabled instruction can do to the scheduler's part of the state: nothing, one raise of a flag
it produces, one phase of a drain slot, or reset (R20, R23, R140 to R145). -/
theorem update_sched {i : Instr} {s : State} (h : enabled i s = true) :
    (update i s).sched = s.sched
      ∨ (∃ f, produces f i = true
        ∧ (update i s).sched = { s.sched with flags := raiseBit s.params f s.flags })
      ∨ (i = .dSample ∧ s.dph = .sample)
      ∨ (i = .dHandle ∧ s.dph = .handle)
      ∨ (i = .dClear ∧ s.dph = .clear)
      ∨ i = .resetEvent := by
  cases i
  case getSoftwHardwVer a => exact .inr (.inl ⟨.version, rfl, by rw [update, acceptVersion_eq]; rfl⟩)
  case cmdOpen a => exact .inr (.inl ⟨.open_, rfl, by rw [update, acceptOpen_eq]; rfl⟩)
  case cmdClose a => exact .inr (.inl ⟨.close, rfl, by rw [update, acceptClose_eq]; rfl⟩)
  case dataIn => exact .inr (.inl ⟨.transmit, rfl, rfl⟩)
  case raise f => exact .inr (.inl ⟨f, by simp [produces], rfl⟩)
  case canRxDone => exact .inr (.inl ⟨.rxrdy, rfl, rfl⟩)
  case canErr => exact .inr (.inl ⟨.error, rfl, rfl⟩)
  case usbCmdOut pkt =>
    rcases parseCommand_sched { s with cmdArmed := false } pkt with h | ⟨f, hf, h⟩
    · exact .inl h
    · exact .inr (.inl ⟨f, hf, h⟩)
  case usbDataOut pkt =>
    rcases parseFrame_sched { s with dataArmed := false } pkt with h | h
    · exact .inl h
    · exact .inr (.inl ⟨.transmit, rfl, h⟩)
  case dSample => exact .inr (.inr (.inl ⟨rfl, by simp [enabled] at h; exact h.2⟩))
  case dHandle => exact .inr (.inr (.inr (.inl ⟨rfl, by simp [enabled] at h; exact h.2⟩)))
  case dClear => exact .inr (.inr (.inr (.inr (.inl ⟨rfl, by simp [enabled] at h; exact h.2⟩))))
  case resetEvent => exact .inr (.inr (.inr (.inr (.inr rfl))))
  case hVersion => exact .inl (handlerBody_sched 0 s)
  case hOpen => exact .inl (handlerBody_sched 1 s)
  case hClose => exact .inl (handlerBody_sched 2 s)
  case hTransmit => exact .inl (handlerBody_sched 3 s)
  case hError => exact .inl (handlerBody_sched 4 s)
  case hRxrdy => exact .inl (handlerBody_sched 5 s)
  all_goals exact .inl rfl

/-- All `exec` can do to the scheduler's part of the state, with the drain's own updates named. -/
theorem exec_sched {i : Instr} {s t : State} (h : exec i s = .next t) :
    t.sched = s.sched
      ∨ (∃ f, produces f i = true
        ∧ t.sched = { s.sched with flags := raiseBit s.params f s.flags })
      ∨ (i = .dSample ∧ s.dph = .sample ∧ t = s.sample)
      ∨ (i = .dHandle ∧ s.dph = .handle ∧ t = s.handle)
      ∨ (i = .dClear ∧ s.dph = .clear ∧ t = s.clear)
      ∨ (i = .resetEvent ∧ t.sched = ⟨s.params, 0, 0, .sample, 0⟩) := by
  rcases exec_next h with ⟨he, rfl⟩ | ⟨-, rfl⟩
  · rcases update_sched he with u | u | ⟨rfl, u⟩ | ⟨rfl, u⟩ | ⟨rfl, u⟩ | rfl
    · exact .inl u
    · exact .inr (.inl u)
    · exact .inr (.inr (.inl ⟨rfl, u, rfl⟩))
    · exact .inr (.inr (.inr (.inl ⟨rfl, u, rfl⟩)))
    · exact .inr (.inr (.inr (.inr (.inl ⟨rfl, u, rfl⟩))))
    · exact .inr (.inr (.inr (.inr (.inr ⟨rfl, rfl⟩))))
  · exact .inl rfl

/-- No drain step holds a `RAISE` (R141). -/
theorem agentOf_produces {f : Flag} {i : Instr} (h : produces f i = true) :
    agentOf i ≠ some .main := by
  cases i <;> cases f <;> simp_all [produces, agentOf]

/-- A reception that has a next state is of a frame of the interface. -/
theorem exec_canRxDone_inInterface {f : Frame} {s t : State} (h : exec (.canRxDone f) s = .next t) :
    f.inInterface = true := by
  by_contra hf
  have : exec (.canRxDone f) s = .refused .frameOutsideInterface := by
    show (if f.inInterface then _ else _) = _
    rw [if_neg hf]
  rw [this] at h; cases h

/-- All a step can be: with an empty script, `MAIN`'s; else the script's next event, decoded, at that
event's levels. -/
theorem step_next {s t : State} (h : step s = .next t) :
    (s.script = [] ∧ exec (mainInstr s) s = .next t)
      ∨ ∃ inp rest i, s.script = inp :: rest ∧ decode s.params (.event inp.event) = .ok i
        ∧ exec i (s.present inp rest) = .next t := by
  unfold step fetch at h
  cases hs : s.script with
  | nil => rw [hs] at h; exact .inl ⟨rfl, h⟩
  | cons inp rest =>
    rw [hs] at h
    cases hd : decode s.params (.event inp.event) with
    | error e => simp [hd] at h
    | ok i => simp only [hd] at h; exact .inr ⟨inp, rest, i, rfl, hd, h⟩

/-- A request row is a step of the USB interrupt context. -/
@[simp] theorem agentOf_cmdRow (code : Byte) (a : CmdArgs) : agentOf (cmdRow code a) = some .uisr := by
  simp only [cmdRow, apply_ite agentOf]
  simp only [agentOf, ite_self]

/-- An instruction that an event decodes to is a step of some agent. -/
theorem agentOf_decodeEvent {c : Params} {e : Event} {i : Instr}
    (h : decode c (.event e) = .ok i) : agentOf i ≠ none := by
  cases e <;> simp only [decode, decodeEvent] at h
  case cmd pkt =>
    split at h
    · cases h
      unfold decodeCmd
      split
      · simp
      · simp [agentOf]
    · cases h
  case data pkt =>
    split at h
    · cases h
      unfold decodeData
      split
      · simp [dinRow, agentOf]
      · simp [agentOf]
    · cases h
  case canrx f => split at h <;> cases h; simp [agentOf]
  all_goals (cases h; simp [agentOf])

/-- `MAIN`'s step is `MAIN`'s. -/
theorem agentOf_mainInstr (s : State) : agentOf (mainInstr s) = some .main := by
  unfold mainInstr; cases s.dph <;> rfl

/-! ### Runs -/

@[simp] theorem andThen_next (s : State) (k : State → Host.Outcome State Fault Refusal) :
    andThen (.next s) k = k s := rfl

/-- No step of a run. -/
theorem run_zero (s : State) : Sys2Proof.core.run 0 s = .next s := rfl

/-- One step of any machine, then the rest of a run, when the step has a next state. -/
theorem core_run_next {M : Host.Core} {s t : M.State} (n : Nat) (h : M.step s = .next t) :
    M.run (n + 1) s = M.run n t := by
  simp only [Host.Core.run, h]

theorem core_run_fault {M : Host.Core} {s : M.State} {r : M.Fault} (n : Nat)
    (h : M.step s = .fault r) : M.run (n + 1) s = .fault r := by
  simp only [Host.Core.run, h]

theorem core_run_refused {M : Host.Core} {s : M.State} {r : M.Refusal} (n : Nat)
    (h : M.step s = .refused r) : M.run (n + 1) s = .refused r := by
  simp only [Host.Core.run, h]

/-- One step, then the rest of a run. -/
theorem run_succ (n : Nat) (s : State) :
    Sys2Proof.core.run (n + 1) s = andThen (step s) fun t => Sys2Proof.core.run n t := by
  cases h : step s with
  | next t => exact core_run_next (M := Sys2Proof.core) n h
  | fault r => exact core_run_fault (M := Sys2Proof.core) n h
  | refused r => exact core_run_refused (M := Sys2Proof.core) n h

/-- A run of a run. -/
theorem run_add {m : Nat} {s t : State} (h : Sys2Proof.core.run m s = .next t) (n : Nat) :
    Sys2Proof.core.run (m + n) s = Sys2Proof.core.run n t := by
  induction m generalizing s with
  | zero =>
    have e : s = t := by
      have := h
      rw [run_zero] at this
      exact Host.Outcome.next.inj this
    rw [e, Nat.zero_add]
  | succ m ih =>
    rw [run_succ] at h
    rw [show m + 1 + n = (m + n) + 1 by omega, run_succ]
    cases hs : step s with
    | next u => rw [hs] at h; exact ih h
    | fault r => rw [hs] at h; cases h
    | refused r => rw [hs] at h; cases h

/-- A line of a script that names a step is `exec` of what its event decodes to, in the same
state (R117). -/
theorem runEvent_eq (e : Event) (s : State) :
    runEvent e s = match decode s.params (.event e) with
      | .ok i => exec i s
      | .error r => .refused (.signal r) := by
  show step (s.deliver e) = _
  unfold step fetch
  show (match (match decode s.params (.event e) with
    | .ok i => (.ok (i, s) : Except DecodeError (Instr × State))
    | .error r => .error r) with
    | .ok (i, s') => exec i s'
    | .error r => .refused (.signal r)) = _
  cases decode s.params (.event e) <;> rfl

end Sys2Proof.Machine
end

