-- ==== Sys2Proof/Laws/PerInstr.lean ====
section
/-! SUPPORT. The family `EncodedLength` of LAWS.json: a wire row encodes to a packet
of the row's length, 16 or 21 bytes, and an instruction of a PORT row has no fixed wire form
(R90, R118). One lemma per constructor. -/

namespace Sys2Proof.Laws.EncodedLength

open Sys2Proof

/-- The length of the packet a signal carries, if it carries one. -/
def packetLength : Signal → Option Nat
  | .event (.cmd pkt) => some pkt.length
  | .event (.data pkt) => some pkt.length
  | .usbCmdIn msg => some msg.length
  | .usbDataIn msg => some msg.length
  | _ => none

/-- The number of bytes the table gives an instruction's row: 16 for `CMD16` and `DIN16`, 21 for
`DOUT21`, the delivered packet itself for the two bare deliveries, none for the other PORT rows
(R90, R118). -/
def rowLength : Instr → Option Nat
  | .getSoftwHardwVer _ | .cmdOpen _ | .cmdClose _ | .cmdReset _ | .setSpeed _
  | .setMaskFilter _ | .getStatus _ | .getStatistics _ | .getSerial _ | .getSoftwVer _
  | .getHardwVer _ | .resetTimestamp _ | .cmdUnrecognized _ _ => some Config.cmdLen
  | .cmdResponse _ _ => some Config.cmdLen
  | .dataIn _ _ _ _ => some Config.dinLen
  | .dataOutCan _ _ _ _ _ | .dataOutErr _ _ => some Config.doutLen
  | .usbCmdOut pkt | .usbDataOut pkt => some pkt.length
  | .raise _ | .dSample | .dHandle | .dClear | .hVersion | .hOpen | .hClose | .hTransmit
  | .hError | .hRxrdy | .btDecode _ | .btCompute | .sendResponse _ | .errMap _ => none
  | .usbInit | .usbDeinit | .canOpen _ | .canClose | .canTxStart _ | .canRxDone _ | .canErr _
  | .canTxDone | .procException | .resetEvent => none

/-- An instruction is encoded in the number of bytes of its row. -/
def Statement (i : Instr) : Prop :=
  ∀ c : Params, packetLength (encode c i) = rowLength i

theorem getSoftwHardwVer (a : CmdArgs) : Statement (.getSoftwHardwVer a) :=
  fun _ => by simp [encode, cmdSignal, packetLength, rowLength]

theorem cmdOpen (a : CmdArgs) : Statement (.cmdOpen a) :=
  fun _ => by simp [encode, cmdSignal, packetLength, rowLength]

theorem cmdClose (a : CmdArgs) : Statement (.cmdClose a) :=
  fun _ => by simp [encode, cmdSignal, packetLength, rowLength]

theorem cmdReset (a : CmdArgs) : Statement (.cmdReset a) :=
  fun _ => by simp [encode, cmdSignal, packetLength, rowLength]

theorem setSpeed (a : CmdArgs) : Statement (.setSpeed a) :=
  fun _ => by simp [encode, cmdSignal, packetLength, rowLength]

theorem setMaskFilter (a : CmdArgs) : Statement (.setMaskFilter a) :=
  fun _ => by simp [encode, cmdSignal, packetLength, rowLength]

theorem getStatus (a : CmdArgs) : Statement (.getStatus a) :=
  fun _ => by simp [encode, cmdSignal, packetLength, rowLength]

theorem getStatistics (a : CmdArgs) : Statement (.getStatistics a) :=
  fun _ => by simp [encode, cmdSignal, packetLength, rowLength]

theorem getSerial (a : CmdArgs) : Statement (.getSerial a) :=
  fun _ => by simp [encode, cmdSignal, packetLength, rowLength]

theorem getSoftwVer (a : CmdArgs) : Statement (.getSoftwVer a) :=
  fun _ => by simp [encode, cmdSignal, packetLength, rowLength]

theorem getHardwVer (a : CmdArgs) : Statement (.getHardwVer a) :=
  fun _ => by simp [encode, cmdSignal, packetLength, rowLength]

theorem resetTimestamp (a : CmdArgs) : Statement (.resetTimestamp a) :=
  fun _ => by simp [encode, cmdSignal, packetLength, rowLength]

theorem cmdUnrecognized (code : Byte) (a : CmdArgs) : Statement (.cmdUnrecognized code a) :=
  fun _ => by simp [encode, cmdSignal, packetLength, rowLength]

theorem cmdResponse (command : Byte) (a : CmdArgs) : Statement (.cmdResponse command a) :=
  fun _ => by simp [encode, packetLength, rowLength]

theorem dataIn (fl : Byte) (idw : Word32) (dlc : Byte) (data : Buf 8) :
    Statement (.dataIn fl idw dlc data) :=
  fun _ => by simp [encode, packetLength, rowLength]

theorem dataOutCan (fl : Byte) (idw : Word32) (dlc : Byte) (data : Buf 8) (ts : Word32) :
    Statement (.dataOutCan fl idw dlc data ts) :=
  fun _ => by simp [encode, packetLength, rowLength]

theorem dataOutErr (code : Byte) (ts : Word32) : Statement (.dataOutErr code ts) :=
  fun _ => by simp [encode, packetLength, rowLength]

theorem raise (f : Flag) : Statement (.raise f) :=
  fun _ => rfl

theorem dSample : Statement .dSample :=
  fun _ => rfl

theorem dHandle : Statement .dHandle :=
  fun _ => rfl

theorem dClear : Statement .dClear :=
  fun _ => rfl

theorem hVersion : Statement .hVersion :=
  fun _ => rfl

theorem hOpen : Statement .hOpen :=
  fun _ => rfl

theorem hClose : Statement .hClose :=
  fun _ => rfl

theorem hTransmit : Statement .hTransmit :=
  fun _ => rfl

theorem hError : Statement .hError :=
  fun _ => rfl

theorem hRxrdy : Statement .hRxrdy :=
  fun _ => rfl

theorem btDecode (p : Buf 10) : Statement (.btDecode p) :=
  fun _ => rfl

theorem btCompute : Statement .btCompute :=
  fun _ => rfl

theorem sendResponse (ec : Byte) : Statement (.sendResponse ec) :=
  fun _ => rfl

theorem errMap (e : ErrRec) : Statement (.errMap e) :=
  fun _ => rfl

theorem usbCmdOut (pkt : Packet) : Statement (.usbCmdOut pkt) :=
  fun _ => rfl

theorem usbDataOut (pkt : Packet) : Statement (.usbDataOut pkt) :=
  fun _ => rfl

theorem usbInit : Statement .usbInit :=
  fun _ => rfl

theorem usbDeinit : Statement .usbDeinit :=
  fun _ => rfl

theorem canOpen (a : OpenArgs) : Statement (.canOpen a) :=
  fun _ => rfl

theorem canClose : Statement .canClose :=
  fun _ => rfl

theorem canTxStart (f : Frame) : Statement (.canTxStart f) :=
  fun _ => rfl

theorem canRxDone (f : Frame) : Statement (.canRxDone f) :=
  fun _ => rfl

theorem canErr (e : ErrRec) : Statement (.canErr e) :=
  fun _ => rfl

theorem canTxDone : Statement .canTxDone :=
  fun _ => rfl

theorem procException : Statement .procException :=
  fun _ => rfl

theorem resetEvent : Statement .resetEvent :=
  fun _ => rfl

end Sys2Proof.Laws.EncodedLength
end

