-- ==== Sys2Proof/Tests/Slice0.lean ====
section
/-! SUPPORT. The model's own tests: ill-formed terms that the checks refuse, words written out from
the encodings of 30_encoding.md, one-step examples of the spec's own text, and for every statement
with hypotheses a concrete state and operands that meet them. -/

namespace Sys2Proof.Tests

open Sys2Proof Sys2Proof.Machine

/-! ### WellFormed: each check refuses a term -/

def par : Params := .default

theorem test_wf_default : par.wf = true := by decide
theorem test_wf_two_flags_one_bit : { par with fRxrdy := par.fVersion }.wf = false := by decide
theorem test_wf_flag_word_too_narrow :
    { par with flagW := 5, fVersion := 0, fOpen := 1, fClose := 2, fTransmit := 3, fError := 4
               fRxrdy := 4 }.wf = false := by decide
theorem test_wf_ext_mask_two_bits : { par with fbExt := 0x81#8 }.wf = false := by decide
theorem test_wf_rtr_mask_zero : { par with fbRtr := 0#8 }.wf = false := by decide
theorem test_wf_err_mask_two_bits : { par with fbErr := 0x0C#8 }.wf = false := by decide
theorem test_wf_flag_masks_equal : { par with fbErr := 0x01#8 }.wf = false := by decide
theorem test_wf_silent_mask_zero : { par with cmSilent := 0#8 }.wf = false := by decide
theorem test_wf_loopback_mask_two_bits : { par with cmLoopback := 0x03#8 }.wf = false := by decide
theorem test_wf_oneshot_mask_zero : { par with cmOneshot := 0#8 }.wf = false := by decide
theorem test_wf_mode_masks_equal : { par with cmOneshot := 0x02#8 }.wf = false := by decide
theorem test_wf_sjw_shifted_out : { par with sjwShift := 31 }.wf = false := by decide
theorem test_wf_ts1_shifted_out : { par with ts1Shift := 29 }.wf = false := by decide
theorem test_wf_ts2_shifted_out : { par with ts2Shift := 30 }.wf = false := by decide
theorem test_wf_init_status_zero : { par with stInit := 0#8 }.wf = false := by decide
theorem test_wf_filter_status_zero : { par with stFilter := 0#8 }.wf = false := by decide
theorem test_wf_arm_status_zero : { par with stArm := 0#8 }.wf = false := by decide
theorem test_wf_packet_too_small : { par with usbMaxpkt := 15 }.wf = false := by decide

/-- A standard frame, id 0x123, dlc 2, data AA BB (Scenario 2 of 95_test_vectors.md). -/
def frame2 : Frame :=
  { id := 0x123#29, ext := false, rtr := false, dlc := 2#4
    data := #v[0xAA#8, 0xBB#8, 0#8, 0#8, 0#8, 0#8, 0#8, 0#8] }

theorem test_wf_frame : (frame2.inInterface, frame2.valid) = (true, true) := by decide
theorem test_wf_dlc_nine : { frame2 with dlc := 9#4 }.inInterface = false := by decide
theorem test_wf_standard_id_12_bits : { frame2 with id := 0x800#29 }.inInterface = false := by decide
theorem test_wf_extended_id_12_bits :
    { frame2 with id := 0x800#29, ext := true }.inInterface = true := by decide
theorem test_wf_byte_above_dlc : { frame2 with dlc := 1#4 }.valid = false := by decide

/-- Ten payload bytes, all 0. -/
def noArgs : CmdArgs := ⟨0#8, 0#8, 0#8, zeros 10⟩

/-- A version query's packet (Scenario 3). -/
def versionPkt : Packet :=
  [0x11#8, 0#8, 0x0C#8, 0#8, 0#8, 0#8, 0#8, 0#8, 0#8, 0#8, 0#8, 0#8, 0#8, 0#8, 0#8, 0x22#8]

/-- The data packet of the example of R220. -/
def dataPkt : Packet :=
  [0x55#8, 0#8, 0#8, 0#8, 0x01#8, 0x23#8, 0x02#8, 0xAA#8, 0xBB#8, 0#8, 0#8, 0#8, 0#8, 0#8, 0#8, 0xAA#8]

theorem test_wf_unrecognized_with_own_row : (Instr.cmdUnrecognized 12#8 noArgs).wf par = false := by
  decide
theorem test_wf_bare_delivery_framed : (Instr.usbCmdOut versionPkt).wf par = false := by decide
theorem test_wf_bare_delivery_too_long :
    (Instr.usbCmdOut (List.replicate 65 0#8)).wf par = false := by decide
theorem test_wf_bare_data_framed : (Instr.usbDataOut dataPkt).wf par = false := by decide
theorem test_wf_bare_data_too_long :
    (Instr.usbDataOut (List.replicate 65 0#8)).wf par = false := by decide
theorem test_wf_tx_frame : (Instr.canTxStart { frame2 with dlc := 1#4 }).wf par = false := by decide
theorem test_wf_rx_frame : (Instr.canRxDone { frame2 with dlc := 9#4 }).wf par = false := by decide

/-! ### Decoding words written out from 30_encoding.md -/

/-- The word of a request with the given code, channel 1, opt1 2, opt2 3 and payload 4 to 13, written
out from R91. -/
def cmdWord (code : Byte) : Packet :=
  [0x11#8, 1#8, code, 2#8, 3#8, 4#8, 5#8, 6#8, 7#8, 8#8, 9#8, 10#8, 11#8, 12#8, 13#8, 0x22#8]

/-- The operands of that word. -/
def args : CmdArgs := ⟨1#8, 2#8, 3#8, #v[4#8, 5#8, 6#8, 7#8, 8#8, 9#8, 10#8, 11#8, 12#8, 13#8]⟩

theorem test_decode_version :
    decode par (.event (.cmd (cmdWord 0x0C#8))) = .ok (.getSoftwHardwVer args) := by decide
theorem test_decode_open : decode par (.event (.cmd (cmdWord 0x02#8))) = .ok (.cmdOpen args) := by
  decide
theorem test_decode_close : decode par (.event (.cmd (cmdWord 0x03#8))) = .ok (.cmdClose args) := by
  decide
theorem test_decode_reset : decode par (.event (.cmd (cmdWord 0x01#8))) = .ok (.cmdReset args) := by
  decide
theorem test_decode_setSpeed : decode par (.event (.cmd (cmdWord 0x04#8))) = .ok (.setSpeed args) := by
  decide
theorem test_decode_setMaskFilter :
    decode par (.event (.cmd (cmdWord 0x05#8))) = .ok (.setMaskFilter args) := by decide
theorem test_decode_getStatus :
    decode par (.event (.cmd (cmdWord 0x06#8))) = .ok (.getStatus args) := by decide
theorem test_decode_getStatistics :
    decode par (.event (.cmd (cmdWord 0x07#8))) = .ok (.getStatistics args) := by decide
theorem test_decode_getSerial :
    decode par (.event (.cmd (cmdWord 0x08#8))) = .ok (.getSerial args) := by decide
theorem test_decode_getSoftwVer :
    decode par (.event (.cmd (cmdWord 0x09#8))) = .ok (.getSoftwVer args) := by decide
theorem test_decode_getHardwVer :
    decode par (.event (.cmd (cmdWord 0x0A#8))) = .ok (.getHardwVer args) := by decide
theorem test_decode_resetTimestamp :
    decode par (.event (.cmd (cmdWord 0x0B#8))) = .ok (.resetTimestamp args) := by decide
theorem test_decode_unrecognized :
    decode par (.event (.cmd (cmdWord 0x0D#8))) = .ok (.cmdUnrecognized 0x0D#8 args) := by decide
theorem test_decode_code_zero :
    decode par (.event (.cmd (cmdWord 0x00#8))) = .ok (.cmdUnrecognized 0x00#8 args) := by decide
theorem test_decode_response :
    decode par (.usbCmdIn (cmdWord 0x02#8)) = .ok (.cmdResponse 0x02#8 args) := by decide
theorem test_decode_dataIn : decode par (.event (.data dataPkt))
    = .ok (.dataIn 0#8 0x123#32 2#8 #v[0xAA#8, 0xBB#8, 0#8, 0#8, 0#8, 0#8, 0#8, 0#8]) := by decide
/-- The message of Scenario 2. -/
theorem test_decode_dataOutCan : decode par (.usbDataIn [0x55#8, 0#8, 0#8, 0#8, 0#8, 0x01#8, 0x23#8,
    2#8, 0xAA#8, 0xBB#8, 0#8, 0#8, 0#8, 0#8, 0#8, 0#8, 0#8, 0#8, 0x12#8, 0x34#8, 0xAA#8])
    = .ok (.dataOutCan 0#8 0x123#32 2#8 #v[0xAA#8, 0xBB#8, 0#8, 0#8, 0#8, 0#8, 0#8, 0#8] 0x1234#32) := by
  decide
/-- The message of the example of R230. -/
theorem test_decode_dataOutErr : decode par (.usbDataIn [0x55#8, 3#8, 4#8, 0#8, 0#8, 0#8, 0#8, 0#8,
    4#8, 0#8, 0#8, 0#8, 0#8, 0#8, 0#8, 0#8, 0#8, 0#8, 0#8, 0x64#8, 0xAA#8])
    = .ok (.dataOutErr 4#8 100#32) := by decide
theorem test_decode_frame_type_one : decode par (.usbDataIn [0x55#8, 1#8, 4#8, 0#8, 0#8, 0#8, 0#8,
    0#8, 4#8, 0#8, 0#8, 0#8, 0#8, 0#8, 0#8, 0#8, 0#8, 0#8, 0#8, 0x64#8, 0xAA#8])
    = .error .noRow := by decide
theorem test_decode_wrong_end_marker :
    decode par (.event (.cmd (versionPkt.dropLast ++ [0x23#8])))
      = .ok (.usbCmdOut (versionPkt.dropLast ++ [0x23#8])) := by decide
theorem test_decode_short_data :
    decode par (.event (.data dataPkt.dropLast)) = .ok (.usbDataOut dataPkt.dropLast) := by decide
theorem test_decode_ports :
    [decode par (.event .init), decode par (.event .deinit), decode par (.event .cantxdone),
      decode par (.event .fault), decode par (.event .reset), decode par (.event .sample),
      decode par (.event .handle), decode par (.event .clear)]
    = [.ok .usbInit, .ok .usbDeinit, .ok .canTxDone, .ok .procException, .ok .resetEvent,
      .ok .dSample, .ok .dHandle, .ok .dClear] := by decide
theorem test_decode_can_events :
    [decode par (.event (.canrx frame2)), decode par (.event (.canerr ⟨true, true, false, .stuff⟩))]
    = [.ok (.canRxDone frame2), .ok (.canErr ⟨true, true, false, .stuff⟩)] := by decide
theorem test_decode_slots :
    [decode par (.slot 0), decode par (.slot 1), decode par (.slot 2), decode par (.slot 3),
      decode par (.slot 4), decode par (.slot 5), decode par (.slot 6)]
    = [.ok .hVersion, .ok .hOpen, .ok .hClose, .ok .hTransmit, .ok .hError, .ok .hRxrdy,
      .error .noSuchSlot] := by decide
theorem test_decode_operations :
    [decode par (.raise 3), decode par (.btDecode (zeros 10)), decode par .btCompute,
      decode par (.sendResponse 2#8), decode par (.errMap ⟨false, false, true, .none_⟩),
      decode par (.raise 6)]
    = [.ok (.raise .transmit), .ok (.btDecode (zeros 10)), .ok .btCompute, .ok (.sendResponse 2#8),
      .ok (.errMap ⟨false, false, true, .none_⟩), .error .noSuchFlag] := by decide
theorem test_decode_calls :
    [decode par (.canOpenReq ⟨0#32, 1#32, 2#32, 3#32, true, false, true⟩), decode par .canCloseReq,
      decode par (.canTxStartReq frame2)]
    = [.ok (.canOpen ⟨0#32, 1#32, 2#32, 3#32, true, false, true⟩), .ok .canClose,
      .ok (.canTxStart frame2)] := by decide
/-- The OPEN packet of Scenario 1 as a table word, byte 0 in bits 7 to 0. -/
theorem test_decode_table_word : decodeTableWord 128 0x2200000000000A000204060000020011
    = some (.cmdOpen ⟨0#8, 0#8, 0#8, #v[6#8, 4#8, 2#8, 0#8, 10#8, 0#8, 0#8, 0#8, 0#8, 0#8]⟩) := by
  decide
theorem test_decode_table_port : decodeTableWord 0 0 = none := by decide

/-! ### One step, against the examples of the spec's rules -/

/-- Whether an outcome is a next state with a property. -/
def after (o : Host.Outcome State Fault Refusal) (p : State → Bool) : Bool :=
  match o with
  | .next t => p t
  | .fault _ => false
  | .refused _ => false

/-- The state after reset and `USB_INIT`. -/
def armed : State := { State.reset with cmdArmed := true, dataArmed := true }

/-- The drain in a phase of slot `k`, the slot's flag set and sampled. -/
def window (ph : Phase) (k : Fin 6) : State :=
  { armed with
    flags := flagBit par (prio k), dslot := k, dph := ph, dsnap := flagBit par (prio k) }

/-- The state with an event at the head of the script. -/
def withEvent (e : Event) (s : State) : State :=
  { s with script := [⟨7#32, 2#8, e⟩] }

/-- R140's example. -/
theorem test_raise : after (exec (.raise .open_) { armed with flags := 0x10#32 })
    (fun t => t.flags.toNat = 0x12) = true := by decide
/-- A build with the narrowest flag word, its flags in the opposite order (R6, D2, D3). -/
def par6 : Params :=
  { par with flagW := 6, fVersion := 5, fOpen := 4, fClose := 3, fTransmit := 2, fError := 1, fRxrdy := 0 }

/-- An armed core of that build, with CLOSE, ERROR and RXRDY set. -/
def armed6 : State := { armed with params := par6, flags := 0x0B#6, dsnap := 0 }

theorem test_wf_narrow : par6.wf = true := by decide
/-- R140 in a flag word of 6 bits: the top bit is set and the others are kept. -/
theorem test_raise_narrow : after (exec (.raise .version) armed6)
    (fun t => t.flags.toNat = 0x2B) = true := by decide
/-- R145 in a flag word of 6 bits. -/
theorem test_clear_narrow : after (exec .dClear { armed6 with dslot := 4, dph := .clear, dsnap := 0x02#6 })
    (fun t => t.flags.toNat = 0x09 ∧ t.dsnap.toNat = 0 ∧ t.dslot = 5) = true := by decide
/-- R143's example. -/
theorem test_sample : after (exec .dSample { armed with flags := 0x12#32, dslot := 1 })
    (fun t => t.dsnap.toNat = 0x02 ∧ t.dph = .handle ∧ t.dslot = 1) = true := by decide
theorem test_sample_wraps : after (exec .dSample { armed with flags := 0x1F#32, dslot := 5 })
    (fun t => t.dsnap.toNat = 0 ∧ t.dph = .sample ∧ t.dslot = 0) = true := by decide
/-- R144's example. -/
theorem test_handle : after (exec .dHandle { window .handle 0 with cmdArmed := false })
    (fun t => t.cmdArmed ∧ t.dph = .clear ∧ t.outCmd.length = 1) = true := by decide
/-- R145's example. -/
theorem test_clear : after (exec .dClear { window .clear 1 with flags := 0x1A#32 })
    (fun t => t.flags.toNat = 0x18 ∧ t.dsnap.toNat = 0 ∧ t.dslot = 2) = true := by decide
theorem test_clear_wraps : after (exec .dClear (window .clear 5))
    (fun t => t.flags.toNat = 0 ∧ t.dslot = 0) = true := by decide

/-- Scenario 1's payload. -/
def payload1 : Buf 10 := #v[6#8, 4#8, 2#8, 0#8, 10#8, 0#8, 0#8, 0#8, 0#8, 0#8]

/-- R170's example, with the mode byte 0x05 of R251's. -/
theorem test_btDecode : after (exec (.btDecode (payload1.set 8 0x05#8)) armed)
    (fun t => (t.btTs1, t.btTs2, t.btSjw, t.btBrp) = (5#4, 3#3, 1#2, 15#17)
      ∧ (t.cmS, t.cmL, t.cmO) = (true, false, true)) = true := by decide
/-- R171: a byte of 0 stores the field's maximum; R181: 65535 gives 98302. -/
theorem test_btDecode_edges :
    after (exec (.btDecode #v[0#8, 0#8, 0#8, 0xFF#8, 0xFF#8, 0#8, 0#8, 0#8, 0xF8#8, 0#8]) armed)
      (fun t => (t.btTs1, t.btTs2, t.btSjw, t.btBrp) = (15#4, 7#3, 3#2, 98302#17)
        ∧ (t.cmS, t.cmL, t.cmO) = (false, false, false)) = true := by decide
/-- R174's example. -/
theorem test_btCompute :
    after (exec .btCompute { armed with btSjw := 1#2, btTs1 := 5#4, btTs2 := 3#3, btBrp := 15#17 })
      (fun t => t.result = .fields ⟨0x01000000#32, 0x00050000#32, 0x00300000#32, 0xF#32⟩) = true := by
  decide

/-- R195's example. -/
theorem test_version : after (exec (.getSoftwHardwVer noArgs) armed)
    (fun t => t.flags.toNat = 1 ∧ t.cmdArmed = false ∧ (slice t.cmdTx 5 4) = #v[0#8, 0x10#8, 0#8, 0x10#8])
    = true := by decide
/-- R196's example. -/
theorem test_open : after (exec (.cmdOpen ⟨0#8, 0#8, 0#8, payload1⟩) armed)
    (fun t => t.flags.toNat = 2 ∧ (t.btTs1, t.btTs2, t.btSjw, t.btBrp) = (5#4, 3#3, 1#2, 15#17)
      ∧ t.canCalls = []) = true := by decide
/-- R197's example, with an earlier version payload that must be cleared (R193). -/
theorem test_close : after (exec (.cmdClose noArgs) { armed with cmdTx := .replicate 16 9#8 })
    (fun t => t.flags.toNat = 4 ∧ slice t.cmdTx 5 10 = zeros 10 ∧ t.cmdTx[4] = 9#8) = true := by decide
/-- R282's example: GET_STATUS. -/
theorem test_getStatus : after (exec (.getStatus noArgs) armed)
    (fun t => t.fault ∧ t.cmdArmed = false ∧ t.outCmd = [] ∧ t.flags.toNat = 0) = true := by decide
/-- R198: code 1 does not reset the core. -/
theorem test_cmdReset : after (exec (.cmdReset noArgs) { armed with lastErr := 4#8 })
    (fun t => t.fault ∧ t.lastErr = 4#8) = true := by decide
/-- R190: a channel that is not armed takes nothing (R336). -/
theorem test_unarmed : after (exec (.cmdOpen args) State.reset) (fun t => t = State.reset) = true := by
  decide
/-- Scenario 5. -/
theorem test_wrong_end_marker :
    after (exec (.usbCmdOut (versionPkt.dropLast ++ [0x23#8])) armed)
      (fun t => t.fault ∧ t.cmdArmed = false ∧ t.flags.toNat = 0 ∧ t.outCmd = []) = true := by decide
/-- R190's example. -/
theorem test_usbCmdOut : after (exec (.usbCmdOut versionPkt) armed)
    (fun t => t.cmdArmed = false ∧ t.flags.toNat = 1) = true := by decide
/-- Scenario 1 answered with status 2 (R213's example). -/
theorem test_hOpen_fails :
    after (exec .hOpen { armed with cmdRx := cmdMsg par 2#8 noArgs, canStatus := 2#8 })
      (fun t => t.canOpenSt = false ∧ t.outCmd = [#v[0x11#8, 0#8, 2#8, 0xFF#8, 0#8, 0#8, 0#8, 0#8, 0#8,
        0#8, 0#8, 0#8, 0#8, 0#8, 0#8, 0x22#8]]) = true := by decide
/-- R251's example: the call H_OPEN makes. -/
theorem test_hOpen_call :
    after (exec .hOpen { armed with
        btSjw := 1#2, btTs1 := 5#4, btTs2 := 3#3, btBrp := 15#17, cmS := true, cmO := true })
      (fun t => t.canOpenSt ∧ t.canCalls = [.open_ ⟨0x01000000#32, 0x00050000#32, 0x00300000#32,
        0xF#32, true, false, true⟩]) = true := by decide
/-- R214's corner: a close while closed succeeds whatever the level on can_status. -/
theorem test_hClose_closed :
    after (exec .hClose { armed with canStatus := 7#8 })
      (fun t => t.outCmd.map (fun m => m[3]) = [0#8] ∧ t.canCalls = [.close]) = true := by decide
theorem test_hClose_fails :
    after (exec .hClose { armed with canStatus := 7#8, canOpenSt := true })
      (fun t => t.outCmd.map (fun m => m[3]) = [0xFF#8] ∧ t.canOpenSt = false) = true := by decide
/-- Scenario 3. -/
theorem test_hVersion :
    after (exec .hVersion { armed with
        cmdRx := cmdMsg par 12#8 noArgs, cmdTx := withPayload (zeros 16) versionPayload })
      (fun t => t.outCmd = [#v[0x11#8, 0#8, 0x0C#8, 0#8, 0#8, 0#8, 0x10#8, 0#8, 0x10#8, 0#8, 0#8, 0#8,
        0#8, 0#8, 0#8, 0x22#8]]) = true := by decide
/-- R210: opt1 is not echoed, channel, command and opt2 are. -/
theorem test_sendResponse :
    after (exec (.sendResponse 3#8) { armed with cmdRx := cmdMsg par 3#8 args })
      (fun t => t.outCmd.map (fun m => (m[1], m[2], m[3], m[4])) = [(1#8, 3#8, 0xFF#8, 3#8)]) = true := by
  decide

/-- R222's example. -/
theorem test_dataIn_extended :
    after (exec (.dataIn 0x01#8 0x1ABCDEF0#32 8#8 #v[1#8, 2#8, 3#8, 4#8, 5#8, 6#8, 7#8, 8#8]) armed)
      (fun t => t.canTxSlot = ⟨0x1ABCDEF0#29, true, false, 8#4,
        #v[1#8, 2#8, 3#8, 4#8, 5#8, 6#8, 7#8, 8#8]⟩ ∧ t.flags.toNat = 8) = true := by decide
/-- R222 (c) and (e): a dlc of 255 is 8, and identifier bits above 10 of a standard frame drop. -/
theorem test_dataIn_clamped :
    after (exec (.dataIn 0xFC#8 0xFFFFF923#32 0xFF#8 (.replicate 8 0xEE#8)) armed)
      (fun t => t.canTxSlot = ⟨0x123#29, false, false, 8#4, .replicate 8 0xEE#8⟩) = true := by decide
/-- R220's example. -/
theorem test_usbDataOut : after (exec (.usbDataOut dataPkt) armed)
    (fun t => t.canTxSlot = frame2 ∧ t.dataArmed = false) = true := by decide
/-- R283's example: 15 bytes. -/
theorem test_short_data : after (exec (.usbDataOut dataPkt.dropLast) armed)
    (fun t => t.fault ∧ t.dataArmed = false ∧ t.flags.toNat = 0 ∧ t.canTxSlot = Frame.zero) = true := by
  decide
/-- R225's example. -/
theorem test_hTransmit : after (exec .hTransmit { armed with canTxSlot := frame2, dataArmed := false })
    (fun t => t.canCalls = [.txStart frame2] ∧ t.canTxBusy ∧ t.dataArmed = false) = true := by decide
/-- Scenario 2. -/
theorem test_hRxrdy : after (exec .hRxrdy { armed with canRxSlot := frame2, tickMs := 0x1234#32 })
    (fun t => t.outData = [#v[0x55#8, 0#8, 0#8, 0#8, 0#8, 0x01#8, 0x23#8, 2#8, 0xAA#8, 0xBB#8, 0#8, 0#8,
      0#8, 0#8, 0#8, 0#8, 0#8, 0#8, 0x12#8, 0x34#8, 0xAA#8]]) = true := by decide
/-- R230's example. -/
theorem test_hError : after (exec .hError { armed with lastErr := 4#8, tickMs := 100#32 })
    (fun t => t.outData = [#v[0x55#8, 3#8, 4#8, 0#8, 0#8, 0#8, 0#8, 0#8, 4#8, 0#8, 0#8, 0#8, 0#8, 0#8,
      0#8, 0#8, 0#8, 0#8, 0#8, 0x64#8, 0xAA#8]]) = true := by decide
/-- R233's example, and its last row. -/
theorem test_errMap : after (exec (.errMap ⟨true, true, false, .stuff⟩) armed)
    (fun t => t.result = .code 0x04#8) = true := by decide
theorem test_errMap_unknown : after (exec (.errMap ⟨false, false, false, .unknown⟩) armed)
    (fun t => t.result = .code 0xFF#8) = true := by decide
/-- R257's example. -/
theorem test_canErr : after (exec (.canErr ⟨true, true, false, .none_⟩) armed)
    (fun t => t.lastErr = 4#8 ∧ t.flags.toNat = 0x10) = true := by decide
/-- R256's example, with a byte above the dlc that is stored as 0. -/
theorem test_canRxDone :
    after (exec (.canRxDone { frame2 with data := frame2.data.set 2 9#8 }) armed)
      (fun t => t.canRxSlot = frame2 ∧ t.flags.toNat = 0x20 ∧ t.canCalls = [.rxRearm]) = true := by decide
/-- R258's example. -/
theorem test_canTxDone : after (exec .canTxDone { armed with canTxBusy := true, dataArmed := false })
    (fun t => t.canTxBusy = false ∧ t.dataArmed) = true := by decide
theorem test_usbInit : after (exec .usbInit State.reset) (fun t => t = armed) = true := by decide
theorem test_usbDeinit : after (exec .usbDeinit armed) (fun t => t = State.reset) = true := by decide
theorem test_canOpen : after (exec (.canOpen ⟨1#32, 2#32, 3#32, 4#32, false, true, false⟩) armed)
    (fun t => t.canOpenSt ∧ t.result = .status 0#8 ∧ t.canCalls.length = 1) = true := by decide
theorem test_canClose : after (exec .canClose { armed with canOpenSt := true, canStatus := 9#8 })
    (fun t => t.canOpenSt = false ∧ t.result = .status 9#8) = true := by decide
theorem test_canTxStart : after (exec (.canTxStart frame2) armed)
    (fun t => t.canTxBusy ∧ t.canCalls = [.txStart frame2]) = true := by decide
theorem test_cmdResponse : after (exec (.cmdResponse 2#8 noArgs) State.reset)
    (fun t => t.outCmd = [cmdMsg par 2#8 noArgs] ∧ t.cmdArmed) = true := by decide
theorem test_dataOutErr : after (exec (.dataOutErr 4#8 100#32) armed)
    (fun t => t.outData = [errMsg par 4#8 100#32]) = true := by decide
theorem test_dataOutCan : after (exec (.dataOutCan 0#8 0x123#32 2#8 frame2.data 0x1234#32) armed)
    (fun t => t.outData = [canMsg par frame2 0x1234#32]) = true := by decide
/-- R287's example: nothing runs in a halted core. -/
theorem test_procException : after (exec .procException (window .handle 1))
    (fun t => t.fault ∧ t.halted ∧ after (exec .dHandle t) (fun u => u = t)) = true := by decide
/-- R320: reset leaves the halted state; the environment's inputs stay. -/
theorem test_resetEvent :
    after (exec .resetEvent { window .clear 3 with halted := true, fault := true, tickMs := 5#32 })
      (fun t => t = { State.reset with tickMs := 5#32 }) = true := by decide
/-- The step runs the decoded event at the event's levels. -/
theorem test_step : after (step (withEvent (.cmd versionPkt) armed))
    (fun t => t.flags.toNat = 1 ∧ t.tickMs = 7#32 ∧ t.script = []) = true := by decide
/-- With an empty script `MAIN` goes on. -/
theorem test_step_main : after (step armed) (fun t => t.dslot = 1) = true := by decide
/-- A placed table word is the next instruction after reset. -/
theorem test_withFetchWord :
    after (step (State.reset.withFetchWord 128 0x2200000000000A000204060000020011))
      (fun t => t.flags.toNat = 2 ∧ t.btBrp = 15#17) = true := by decide

/-! ### Witnesses: a concrete state and operands that meet the hypotheses of each statement

Most statements ask that the core is not halted, and that a channel is armed: `armed` is both. -/

/-- A flag with its command code whose handler has still to run, as a test. -/
def owed (s : State) (f : Flag) : Bool :=
  hasFlag s.params s.flags f && !(decide (s.dph = .clear) && decide (prio s.dslot = f))

theorem owed_of_pending {s : State} {f : Flag} (h : pending s f) : owed s f = true := by
  obtain ⟨h, h'⟩ := h
  simp only [owed, h, Bool.true_and, Bool.not_eq_true', Bool.and_eq_false_iff, decide_eq_false_iff_not]
  exact not_and_or.mp h'

theorem commandInv_of {s : State}
    (h : ∀ p ∈ [(Flag.version, 12#8), (.open_, 2#8), (.close, 3#8)],
      owed s p.1 = true → s.cmdArmed = false ∧ s.cmdRx[2] = p.2) : CommandInv s := by
  have key : ∀ f code, codeOf f = some code → pending s f →
      s.cmdArmed = false ∧ s.cmdRx[2] = code := by
    intro f code hc hp
    refine h (f, code) ?_ (owed_of_pending hp)
    cases f <;> simp_all [codeOf]
  exact ⟨fun ha f code hc hp => by simp [(key f code hc hp).1] at ha,
    fun f code hc hp => (key f code hc hp).2⟩

/-- An armed core in the middle of a pass, with ERROR and RXRDY set and slot 4 sampled. -/
def busy : State := { window .handle 4 with flags := 0x30#32 }

/-- A core that holds an accepted OPEN and is about to answer it. -/
def answering : State :=
  { window .handle 1 with cmdArmed := false, cmdRx := cmdMsg par 2#8 args }

/-- All six flags set at the start of a pass. -/
def allSet : State :=
  { armed with flags := 0x3F#32, cmdArmed := false, cmdRx := cmdMsg par 2#8 args }

/-- A halted core. -/
def stopped : State := { armed with fault := true, halted := true }

theorem schedInv_armed : SchedInv armed :=
  ⟨by decide, rfl, by decide, by decide, by decide⟩
theorem schedInv_busy : SchedInv busy :=
  ⟨by decide, rfl, by decide, by decide, by decide⟩
theorem schedInv_answering : SchedInv answering :=
  ⟨by decide, rfl, by decide, by decide, by decide⟩
theorem schedInv_allSet : SchedInv allSet :=
  ⟨by decide, rfl, by decide, by decide, by decide⟩
theorem schedInv_gap : ∀ k : Fin 6, SchedInv (window .clear k) := by
  intro k
  exact ⟨by revert k; decide, by revert k; unfold reservedZero; decide, by revert k; decide,
    by revert k; decide, by revert k; decide⟩
theorem commandInv_armed : CommandInv armed := commandInv_of (by decide)
theorem commandInv_answering : CommandInv answering := commandInv_of (by decide)
theorem commandInv_gap : ∀ k : Fin 6, CommandInv (window .clear k) := by
  intro k
  exact commandInv_of (by revert k; decide)
theorem dataInv_busy : DataInv { busy with canRxSlot := frame2, lastErr := 0xFF#8, btBrp := 98302#17 } :=
  ⟨by decide, by decide, by decide, by decide, by decide⟩
theorem outputInv_busy :
    OutputInv { busy with canRxSlot := frame2, lastErr := 0xFF#8, btBrp := 98302#17 } :=
  ⟨fun _ h => (List.not_mem_nil h).elim, fun _ h => (List.not_mem_nil h).elim⟩

theorem witness_RaiseSetsExactlyOneBit :
    armed.halted = false ∧ (∃ t, exec (.raise .open_) armed = .next t)
      ∧ busy.halted = false ∧ busy.flags.getLsbD (busy.params.flagIx .error).val = true
      ∧ (∃ t, exec (.raise .error) busy = .next t)
      ∧ ∀ f : Flag, (par.flagIx f).val ≠ 6 :=
  ⟨rfl, ⟨_, rfl⟩, rfl, by decide, ⟨_, rfl⟩, by intro f; cases f <;> decide⟩
theorem witness_SampleSnapshotsTheSlotsFlag :
    armed.halted = false ∧ armed.dph = .sample ∧ armed.flags.getLsbD 0 = false
      ∧ allSet.halted = false ∧ allSet.dph = .sample ∧ allSet.flags.getLsbD 0 = true := by decide
theorem witness_HandleRunsTheSlotsHandler : ∀ k : Fin 6,
    (window .handle k).halted = false ∧ (window .handle k).dph = .handle
      ∧ (window .handle k).dslot = k := by decide
theorem witness_ClearClearsExactlyTheSnapshot : ∀ k : Fin 6,
    (window .clear k).halted = false ∧ (window .clear k).dph = .clear := by decide
/-- For the statements that ask only that the core is not halted. -/
theorem witness_not_halted : armed.halted = false := rfl
theorem witness_TranslatorRoundTrip :
    armed.params.wf = true ∧ armed.halted = false
      ∧ 1 ≤ (#v[1#8, 8#8, 4#8] : Buf 3)[0].toNat ∧ (16#8).toNat ≤ 16 ∧ (8#8).toNat ≤ 8
      ∧ (4#8).toNat ≤ 4 := by decide
/-- For VersionQueryIsAccepted, OpenIsAccepted, CloseIsAccepted and UnusedCommandsAreUnrecognized
(with each of its ten pairs). -/
theorem witness_commands :
    armed.halted = false ∧ armed.cmdArmed = true
      ∧ (Instr.cmdReset args, 1#8) ∈ [(Instr.cmdReset args, 1#8), (.setSpeed args, 4#8),
        (.setMaskFilter args, 5#8), (.getStatus args, 6#8), (.getStatistics args, 7#8),
        (.getSerial args, 8#8), (.getSoftwVer args, 9#8), (.getHardwVer args, 10#8),
        (.resetTimestamp args, 11#8), (.cmdUnrecognized 1#8 args, 1#8)]
      ∧ (Instr.cmdUnrecognized 13#8 args, 13#8) ∈ [(Instr.cmdReset args, 1#8), (.setSpeed args, 4#8),
        (.setMaskFilter args, 5#8), (.getStatus args, 6#8), (.getStatistics args, 7#8),
        (.getSerial args, 8#8), (.getSoftwVer args, 9#8), (.getHardwVer args, 10#8),
        (.resetTimestamp args, 11#8), (.cmdUnrecognized 13#8 args, 13#8)] := by decide
theorem witness_CommandsAreDispatchedOnTheirCode :
    armed.halted = false ∧ armed.cmdArmed = true
      ∧ ∀ code ∈ [12#8, 2#8, 3#8, 0#8, 1#8, 4#8, 11#8, 13#8, 255#8],
        (cmdMsg par code args)[0] = armed.params.cmdSof
          ∧ (cmdMsg par code args)[15] = armed.params.cmdEof
          ∧ (cmdMsg par code args)[2] = code := by decide
theorem witness_CommandFramingError :
    armed.halted = false ∧ armed.cmdArmed = true
      ∧ ([] : Packet).length ≠ 16 ∧ versionPkt.dropLast.length ≠ 16
      ∧ (versionPkt ++ [0#8]).length ≠ 16
      ∧ (versionPkt.set 0 0x12#8)[0]? ≠ some armed.params.cmdSof
      ∧ (versionPkt.set 15 0x23#8)[15]? ≠ some armed.params.cmdEof := by decide
theorem witness_handlers_status :
    armed.halted = false ∧ armed.canStatus = 0#8 ∧ armed.canOpenSt = false
      ∧ ({ armed with canStatus := 7#8, canOpenSt := true } : State).halted = false := by decide
theorem witness_DataMessageFillsTheSlot : armed.halted = false ∧ armed.dataArmed = true := by decide
theorem witness_DataDeliveryParsesOrFails :
    armed.halted = false ∧ armed.dataArmed = true
      ∧ (dinMsg par 0#8 0x123#32 2#8 frame2.data)[0] = armed.params.dataSof
      ∧ (dinMsg par 0#8 0x123#32 2#8 frame2.data)[15] = armed.params.dataEof
      ∧ dataPkt.dropLast.length ≠ 16 ∧ (dataPkt ++ [0#8]).length ≠ 16
      ∧ (dataPkt.set 0 0x54#8)[0]? ≠ some armed.params.dataSof
      ∧ (dataPkt.set 15 0xAB#8)[15]? ≠ some armed.params.dataEof := by decide
theorem witness_ErrorMapByPriority :
    armed.halted = false
      ∧ (⟨true, true, true, .crc⟩ : ErrRec).bof = true
      ∧ (⟨false, true, true, .crc⟩ : ErrRec).bof = false ∧ (⟨false, true, true, .crc⟩ : ErrRec).epv = true
      ∧ (⟨false, false, true, .crc⟩ : ErrRec).epv = false
      ∧ (⟨false, false, true, .crc⟩ : ErrRec).ewg = true
      ∧ (⟨false, false, false, .crc⟩ : ErrRec).ewg = false := by decide
theorem witness_ReceptionFillsTheSlot :
    armed.halted = false
      ∧ ({ frame2 with dlc := 8#4, id := 0x7FF#29 } : Frame).dlc.toNat ≤ 8
      ∧ ({ frame2 with dlc := 8#4, id := 0x7FF#29 } : Frame).id.toNat < 2 ^ 11
      ∧ ({ frame2 with ext := true, id := 0x1FFFFFFF#29 } : Frame).ext ≠ false
      ∧ 8 < ({ frame2 with dlc := 9#4 } : Frame).dlc.toNat := by decide
theorem witness_OutsideTheInterfaceIsRefused :
    ({ frame2 with id := 0x800#29 } : Frame).ext = false
      ∧ 2 ^ 11 ≤ ({ frame2 with id := 0x800#29 } : Frame).id.toNat
      ∧ 8 < ({ frame2 with dlc := 9#4 } : Frame).dlc.toNat
      ∧ par.usbMaxpkt < (List.replicate 65 0#8 : Packet).length := by decide
theorem witness_DisabledStepsChangeNothing :
    stopped.halted = true ∧ Instr.dSample ≠ .procException ∧ Instr.dSample ≠ .resetEvent
      ∧ frame2.inInterface = true
      ∧ State.reset.cmdArmed = false ∧ State.reset.dataArmed = false
      ∧ (window .handle 0).dph ≠ .sample ∧ (window .clear 0).dph ≠ .handle
      ∧ (window .handle 0).dph ≠ .clear := by decide
theorem witness_StepRunsTheDecodedInstruction :
    (withEvent (.cmd versionPkt) armed).script = [⟨7#32, 2#8, .cmd versionPkt⟩]
      ∧ decode par (.event (.cmd versionPkt)) = .ok (.getSoftwHardwVer noArgs)
      ∧ (Instr.getSoftwHardwVer noArgs).wf par = true
      ∧ (withEvent (.canrx { frame2 with dlc := 9#4 }) armed).script
        = [⟨7#32, 2#8, .canrx { frame2 with dlc := 9#4 }⟩]
      ∧ decode par (.event (.canrx { frame2 with dlc := 9#4 })) = .error .frameOutsideInterface
      ∧ armed.script = [] := by decide
theorem witness_DecodeOfEncodeIsTheInstruction :
    par.wf = true ∧ (Instr.dataIn 0xFF#8 0xFFFFFFFF#32 0xFF#8 frame2.data).wf par = true
      ∧ (Instr.canRxDone { frame2 with dlc := 8#4, id := 0x7FF#29 }).wf par = true
      ∧ (Instr.usbCmdOut (List.replicate 64 0x11#8)).wf par = true := by decide
theorem witness_EncodeOfDecodeIsTheSignal :
    decode par (.event (.data dataPkt.dropLast)) = .ok (.usbDataOut dataPkt.dropLast) := by decide
theorem witness_StepKeepsTheSchedulerInvariant :
    SchedInv (window .clear 5) ∧ ∃ t, step (window .clear 5) = .next t :=
  ⟨schedInv_gap 5, _, rfl⟩
/-- For StepKeepsTheDataInvariant and StepKeepsTheOutputsGood: the step emits an error report. -/
theorem witness_StepKeepsTheOutputsGood : ∃ s t : State,
    DataInv s ∧ OutputInv s ∧ step s = .next t ∧ t.outData.length = 1 :=
  ⟨_, _, dataInv_busy, outputInv_busy, rfl, by decide⟩
theorem witness_StepKeepsTheCommandProtocol :
    SchedInv answering ∧ CommandInv answering
      ∧ (∀ inp rest, answering.script = inp :: rest → inp.event ≠ .init)
      ∧ ∃ t, step answering = .next t ∧ t.cmdArmed = true :=
  ⟨schedInv_answering, commandInv_answering,
    fun _ _ h => (List.cons_ne_nil _ _ h.symm).elim, _, rfl, by decide⟩
theorem witness_OnlyResetClearsFaultAndHalted :
    (∃ t, exec .dSample stopped = .next t) ∧ Instr.dSample ≠ .resetEvent
      ∧ stopped.fault = true ∧ stopped.halted = true :=
  ⟨⟨_, rfl⟩, by decide, by decide, by decide⟩
theorem witness_OnlyItsOwnClearClearsAFlag :
    SchedInv (window .clear 5) ∧ ∃ t, exec .dClear (window .clear 5) = .next t
      ∧ hasFlag par (window .clear 5).flags .rxrdy = true ∧ hasFlag t.params t.flags .rxrdy = false :=
  ⟨schedInv_gap 5, _, rfl, by decide, by decide⟩
theorem witness_OnlyTheProducerRaisesAFlag :
    armed.params.wf = true ∧ (∃ t, exec (.usbCmdOut versionPkt) armed = .next t
      ∧ hasFlag par armed.flags .version = false ∧ hasFlag t.params t.flags .version = true)
      ∧ (window .clear 5).params.wf = true ∧ ∃ t, exec .dClear (window .clear 5) = .next t
      ∧ hasFlag par (window .clear 5).flags .rxrdy = true ∧ hasFlag t.params t.flags .rxrdy = false :=
  ⟨by decide, ⟨_, rfl, by decide, by decide⟩, by decide, _, rfl, by decide, by decide⟩
theorem witness_SameFlagGapLosesTheRequest : ∀ k : Fin 6,
    SchedInv (window .clear k) ∧ CommandInv (window .clear k) ∧ (window .clear k).halted = false
      ∧ (window .clear k).cmdArmed = true ∧ (window .clear k).dph = .clear
      ∧ prio (window .clear k).dslot = prio k ∧ codeOf (prio 1) = some 2#8
      ∧ ∃ t, exec (.raise (prio k)) (window .clear k) = .next t :=
  fun k => ⟨schedInv_gap k, commandInv_gap k, rfl, rfl, rfl, rfl, rfl, _, rfl⟩
/-- A core in the middle of a pass whose command channel is dead, with a packet still to come. -/
def dead : State := { busy with cmdArmed := false, script := [⟨0#32, 0#8, .cmd versionPkt⟩] }

theorem witness_DeadCommandChannelStaysDead :
    SchedInv dead ∧ cmdDead dead
      ∧ (∀ inp ∈ dead.script, inp.event ≠ .init ∧ inp.event ≠ .reset)
      ∧ ∃ t, Sys2Proof.core.run 2 dead = .next t := by
  refine ⟨⟨by decide, rfl, by decide, by decide, by decide⟩, ⟨rfl, fun f code hc hp => ?_⟩,
    by decide, _, rfl⟩
  have := owed_of_pending hp
  revert this
  cases f <;> first | (simp [codeOf] at hc; done) | decide
theorem witness_PassServesTheFlagsInPriorityOrder :
    SchedInv allSet ∧ allSet.halted = false ∧ allSet.dslot = 0 ∧ allSet.dph = .sample :=
  ⟨schedInv_allSet, rfl, rfl, rfl⟩
theorem witness_EveryPendingFlagIsDispatched :
    SchedInv busy ∧ busy.halted = false ∧ busy.script = [] ∧ pending busy .rxrdy :=
  ⟨schedInv_busy, rfl, rfl, by decide, by decide⟩
theorem witness_AcceptedCommandIsAnswered :
    SchedInv armed ∧ CommandInv armed ∧ armed.halted = false ∧ armed.cmdArmed = true
      ∧ armed.script = [] ∧ codeOf .close = some 3#8
      ∧ ¬(armed.dph = .clear ∧ prio armed.dslot = .close)
      ∧ ∃ t, exec (cmdRow 3#8 args) armed = .next t :=
  ⟨schedInv_armed, commandInv_armed, rfl, rfl, rfl, rfl, by decide, _, rfl⟩
theorem witness_EveryResponseAnswersTheHeldCommand :
    SchedInv answering ∧ CommandInv answering ∧ ∃ t, step answering = .next t
      ∧ t.outCmd ≠ answering.outCmd ∧ t.outCmd ≠ [] :=
  ⟨schedInv_answering, commandInv_answering, _, rfl, by decide, by decide⟩
/-- For OnlyMainCallsAndEmits, its clause on the two calls. -/
theorem witness_calls :
    (∃ t, exec .dHandle (window .handle 1) = .next t ∧ ∃ a, t.canCalls = [] ++ [.open_ a])
      ∧ ∃ t, exec .dHandle (window .handle 2) = .next t ∧ t.canCalls = [] ++ [.close] :=
  ⟨⟨_, rfl, _, rfl⟩, _, rfl, rfl⟩
/-- For OnlyMainCallsAndEmits and EachBufferHasOneWriter: an instruction of every agent. -/
theorem witness_agents :
    (∃ t, exec (.usbCmdOut versionPkt) armed = .next t) ∧ agentOf (.usbCmdOut versionPkt) = some .uisr
      ∧ (∃ t, exec (.canRxDone frame2) armed = .next t) ∧ agentOf (.canRxDone frame2) = some .cisr
      ∧ (∃ t, exec .dHandle busy = .next t) ∧ agentOf .dHandle = some .main
      ∧ (∃ t, exec .procException armed = .next t) ∧ agentOf .procException = some .environment
      ∧ Instr.procException ≠ .resetEvent :=
  ⟨⟨_, rfl⟩, rfl, ⟨_, rfl⟩, rfl, ⟨_, rfl⟩, rfl, ⟨_, rfl⟩, rfl, by decide⟩
/-- For DisarmedChannelsKeepTheirBuffers and OutputsOnlyGrow. -/
theorem witness_DisarmedChannelsKeepTheirBuffers :
    (∃ t, step (withEvent (.cmd versionPkt) State.reset) = .next t)
      ∧ (∀ inp rest, (withEvent (.cmd versionPkt) State.reset).script = inp :: rest →
        inp.event ≠ .reset)
      ∧ (withEvent (.cmd versionPkt) State.reset).cmdArmed = false
      ∧ (withEvent (.cmd versionPkt) State.reset).dataArmed = false :=
  ⟨⟨_, rfl⟩, fun _ _ h => by injection h with h _; subst h; decide, rfl, rfl⟩
theorem witness_DataRxIsNeverReadAgain :
    forgetDataRx armed = forgetDataRx { armed with dataRx := .replicate 16 9#8 }
      ∧ (∃ t, exec (.usbDataOut dataPkt) armed = .next t ∧ t.dataRx ≠ armed.dataRx)
      ∧ armed.halted = false ∧ armed.dataArmed = true
      ∧ (dinMsg par 0#8 0x123#32 2#8 frame2.data)[0] = armed.params.dataSof
      ∧ (dinMsg par 0#8 0x123#32 2#8 frame2.data)[15] = armed.params.dataEof :=
  ⟨rfl, ⟨_, rfl, by decide⟩, by decide⟩
theorem witness_IgnoredBytesOfOpenAreIgnored :
    (∀ k : Fin 5, payload1[k.val] = ((payload1.set 5 0xFF#8).set 8 0xF8#8)[k.val])
      ∧ payload1[8] &&& (armed.params.cmSilent ||| armed.params.cmLoopback ||| armed.params.cmOneshot)
        = ((payload1.set 5 0xFF#8).set 8 0xF8#8)[8]
          &&& (armed.params.cmSilent ||| armed.params.cmLoopback ||| armed.params.cmOneshot)
      ∧ (∃ t, exec (.cmdOpen ⟨0#8, 0#8, 0#8, payload1⟩) armed = .next t)
      ∧ ∃ u, exec (.cmdOpen ⟨1#8, 2#8, 3#8, (payload1.set 5 0xFF#8).set 8 0xF8#8⟩) armed = .next u :=
  ⟨by decide, by decide, ⟨_, rfl⟩, _, rfl⟩
theorem witness_PortFormulaIsClearThenRaise :
    [Flag.error, .rxrdy, .error].Perm [.rxrdy, .error, .error] := by decide
theorem witness_MemReadAfterMemWrite :
    17 + 4 ≤ 21 ∧ 0xFFFFFFFF < 256 ^ 4 ∧ 0 < 256 ^ 0 := by decide
theorem witness_ErrorsCoalesceIntoOneReport :
    SchedInv armed ∧ armed.halted = false ∧ armed.flags = 0 ∧ armed.dslot = 0
      ∧ armed.dph = .sample
      ∧ ∃ t, ([⟨false, false, true, .none_⟩] ++ [⟨true, false, false, .none_⟩] : List ErrRec).foldl
          (fun o x => andThen o (exec (.canErr x))) (.next armed) = .next t :=
  ⟨schedInv_armed, rfl, rfl, rfl, rfl, _, rfl⟩

end Sys2Proof.Tests
end

section
/-! PROOFS. `DATA_RX` is written by the data deliveries and by reset, and read by nothing (R28).

Giving `DATA_RX` another value commutes with the update of every instruction that does not write it, and
is lost in the update of every instruction that does. The first fact says at once that a non-writer
leaves the buffer alone and does not read it; the second, that a writer does not read it either. -/

namespace Sys2Proof.Machine

open Sys2Proof

/-- The state with `d` in `DATA_RX`. -/
def State.withDataRx (s : State) (d : Buf 16) : State :=
  { s with dataRx := d }

/-- The instructions whose step writes `DATA_RX`: a data delivery, well-framed or not, and reset (R28,
R320). -/
def writesDataRx : Instr → Bool
  | .dataIn _ _ _ _ | .usbDataOut _ | .resetEvent => true
  | _ => false

/-! ### `State.withDataRx` -/

section
variable (s : State) (d : Buf 16)

@[simp] theorem State.withDataRx_dataRx : (s.withDataRx d).dataRx = d := rfl
@[simp] theorem State.withDataRx_params : (s.withDataRx d).params = s.params := rfl
@[simp] theorem State.withDataRx_script : (s.withDataRx d).script = s.script := rfl
@[simp] theorem State.withDataRx_self : s.withDataRx s.dataRx = s := rfl
@[simp] theorem State.withDataRx_forgetDataRx :
    (forgetDataRx s).withDataRx d = s.withDataRx d := rfl
@[simp] theorem forgetDataRx_withDataRx : forgetDataRx (s.withDataRx d) = forgetDataRx s := rfl

end

/-- Two states that differ only in `DATA_RX` differ by an assignment to it. -/
theorem eq_withDataRx_of_forgetDataRx_eq {s t : State} (h : forgetDataRx s = forgetDataRx t) :
    t = s.withDataRx t.dataRx := by
  simpa using (congrArg (State.withDataRx · t.dataRx) h).symm

theorem writesDataRx_cases {i : Instr} (h : writesDataRx i = true) :
    i = .resetEvent ∨ (∃ fl idw dlc data, i = .dataIn fl idw dlc data) ∨ ∃ pkt, i = .usbDataOut pkt := by
  cases i
  case dataIn fl idw dlc data => exact .inr (.inl ⟨fl, idw, dlc, data, rfl⟩)
  case usbDataOut pkt => exact .inr (.inr ⟨pkt, rfl⟩)
  case resetEvent => exact .inl rfl
  all_goals cases h

/-! ### The operations that branch -/

/-- `D_SAMPLE` on a slot whose flag is set (R143). -/
theorem sample_of_set {s : State} (h : hasFlag s.params s.flags (prio s.dslot) = true) :
    s.sample = { s with dsnap := flagBit s.params (prio s.dslot), dph := .handle } := by
  obtain ⟨-, e⟩ | ⟨h', -⟩ := sample_cases s
  · exact e
  · simp [h] at h'

/-- `D_SAMPLE` on a slot whose flag is not set (R143). -/
theorem sample_of_unset {s : State} (h : hasFlag s.params s.flags (prio s.dslot) = false) :
    s.sample = { s with dslot := s.dslot + 1, dph := .sample, dsnap := 0 } := by
  obtain ⟨h', -⟩ | ⟨-, e⟩ := sample_cases s
  · simp [h] at h'
  · exact e

theorem sample_withDataRx (s : State) (d : Buf 16) :
    (s.withDataRx d).sample = s.sample.withDataRx d := by
  cases h : hasFlag s.params s.flags (prio s.dslot)
  · rw [sample_of_unset h, sample_of_unset (s := s.withDataRx d) h]; rfl
  · rw [sample_of_set h, sample_of_set (s := s.withDataRx d) h]; rfl

theorem handlerBody_withDataRx (k : Fin 6) (s : State) (d : Buf 16) :
    handlerBody k (s.withDataRx d) = (handlerBody k s).withDataRx d := by
  match k with
  | 0 => rw [handlerBody_zero, handlerBody_zero]; rfl
  | 1 => rw [handlerBody_one, handlerBody_one]; rfl
  | 2 => rw [handlerBody_two, handlerBody_two]; rfl
  | 3 => rfl
  | 4 => rw [handlerBody_four, handlerBody_four]; rfl
  | 5 => rw [handlerBody_five, handlerBody_five]; rfl

theorem handle_withDataRx (s : State) (d : Buf 16) :
    (s.withDataRx d).handle = s.handle.withDataRx d :=
  congrArg (fun t : State => { t with dph := .clear }) (handlerBody_withDataRx s.dslot s d)

theorem dispatch_withDataRx (s : State) (b : Buf 16) (d : Buf 16) :
    (s.withDataRx d).dispatch b = (s.dispatch b).withDataRx d := by
  unfold State.dispatch
  split_ifs <;> rfl

/-- Parsing a packet that passes the three checks (R191). -/
theorem parseCommand_framed {s : State} {pkt : Packet} {b : Buf 16}
    (h : cmdFrame? s.params pkt = some b) :
    s.parseCommand pkt = State.dispatch { s with cmdRx := b } b := by
  simp [State.parseCommand, h]

/-- Parsing a data packet that passes the three checks (R221, R222). -/
theorem parseFrame_framed {s : State} {pkt : Packet} {b : Buf 16}
    (h : dinFrame? s.params pkt = some b) :
    s.parseFrame pkt = State.acceptFrame { s with dataRx := b } b[1]
      (BitVec.ofNat 32 (memRead b 2 4)) b[6] (slice b 7 8) := by
  simp [State.parseFrame, h]

theorem parseCommand_withDataRx (s : State) (pkt : Packet) (d : Buf 16) :
    (s.withDataRx d).parseCommand pkt = (s.parseCommand pkt).withDataRx d := by
  cases h : cmdFrame? s.params pkt with
  | none => rw [parseCommand_bad h, parseCommand_bad (s := s.withDataRx d) h]; rfl
  | some b =>
    rw [parseCommand_framed h, parseCommand_framed (s := s.withDataRx d) h]
    exact dispatch_withDataRx { s with cmdRx := b } b d

/-- A delivery overwrites `DATA_RX`, by the message or, after a framing error, by a free value; what
it held is lost (R221, R223). -/
theorem parseFrame_withDataRx (s : State) (pkt : Packet) (d : Buf 16) :
    (s.withDataRx d).parseFrame pkt = s.parseFrame pkt := by
  cases h : dinFrame? s.params pkt with
  | none => rw [parseFrame_bad h, parseFrame_bad (s := s.withDataRx d) h]; rfl
  | some b => rw [parseFrame_framed h, parseFrame_framed (s := s.withDataRx d) h]; rfl

/-- A delivered message that carries both markers is in `DATA_RX` afterwards (R221, R222). -/
theorem parseFrame_dataRx {s : State} {b : Buf 16} (h0 : b[0] = s.params.dataSof)
    (h15 : b[15] = s.params.dataEof) : (s.parseFrame b.toList).dataRx = b := by
  rw [parseFrame_framed (dinFrame?_eq_some.mpr ⟨rfl, h0, h15⟩)]; rfl

/-! ### Instructions and steps -/

theorem enabled_withDataRx (i : Instr) (s : State) (d : Buf 16) :
    enabled i (s.withDataRx d) = enabled i s := by
  cases i <;> rfl

/-- An instruction that does not write `DATA_RX` does not read it and leaves it as it is. -/
theorem update_withDataRx {i : Instr} (h : writesDataRx i = false) (s : State) (d : Buf 16) :
    update i (s.withDataRx d) = (update i s).withDataRx d := by
  cases i
  case dataIn | usbDataOut | resetEvent => cases h
  case dSample => exact sample_withDataRx s d
  case dHandle => exact handle_withDataRx s d
  case hVersion => exact handlerBody_withDataRx 0 s d
  case hOpen => exact handlerBody_withDataRx 1 s d
  case hClose => exact handlerBody_withDataRx 2 s d
  case hTransmit => exact handlerBody_withDataRx 3 s d
  case hError => exact handlerBody_withDataRx 4 s d
  case hRxrdy => exact handlerBody_withDataRx 5 s d
  case usbCmdOut pkt => exact parseCommand_withDataRx { s with cmdArmed := false } pkt d
  all_goals rfl

/-- An instruction that writes `DATA_RX` does not read it. -/
theorem update_withDataRx_of_writes {i : Instr} (h : writesDataRx i = true) (s : State) (d : Buf 16) :
    update i (s.withDataRx d) = update i s := by
  obtain rfl | ⟨fl, idw, dlc, data, rfl⟩ | ⟨pkt, rfl⟩ := writesDataRx_cases h
  · rfl
  · rfl
  · exact parseFrame_withDataRx { s with dataArmed := false } pkt d

/-- No update reads `DATA_RX`: started from two values of it, it differs at most in `DATA_RX`. -/
theorem forgetDataRx_update_withDataRx (i : Instr) (s : State) (d : Buf 16) :
    forgetDataRx (update i (s.withDataRx d)) = forgetDataRx (update i s) := by
  cases h : writesDataRx i
  · rw [update_withDataRx h, forgetDataRx_withDataRx]
  · rw [update_withDataRx_of_writes h]

theorem update_dataRx {i : Instr} (h : writesDataRx i = false) (s : State) :
    (update i s).dataRx = s.dataRx := by
  simpa using congrArg State.dataRx (update_withDataRx h s s.dataRx)

/-- A reception of a frame outside the interface is refused, whatever the state (R256, U14). -/
theorem exec_canRxDone_outside {f : Frame} (h : ¬f.inInterface = true) (s : State) :
    exec (.canRxDone f) s = .refused .frameOutsideInterface :=
  if_neg h

/-- Executing an instruction, enabled or not, or refused, reads nothing of `DATA_RX`. -/
theorem forgetOutcome_exec_withDataRx (i : Instr) (s : State) (d : Buf 16) :
    forgetOutcome (exec i (s.withDataRx d)) = forgetOutcome (exec i s) := by
  by_cases hf : ∀ f, i = .canRxDone f → f.inInterface = true
  · rw [exec_eq i _ hf, exec_eq i _ hf, enabled_withDataRx]
    cases enabled i s
    · rfl
    · exact congrArg Host.Outcome.next (forgetDataRx_update_withDataRx i s d)
  · push Not at hf
    obtain ⟨f, rfl, hf⟩ := hf
    rw [exec_canRxDone_outside hf, exec_canRxDone_outside hf]

theorem step_of_script_nil {s : State} (h : s.script = []) : step s = exec (mainInstr s) s := by
  simp [step, fetch, h]

theorem step_of_decode_ok {s : State} {inp : Input} {rest : List Input} {i : Instr}
    (h : s.script = inp :: rest) (hd : decode s.params (.event inp.event) = .ok i) :
    step s = exec i (s.present inp rest) := by
  simp [step, fetch, h, hd]

theorem step_of_decode_error {s : State} {inp : Input} {rest : List Input} {e : DecodeError}
    (h : s.script = inp :: rest) (hd : decode s.params (.event inp.event) = .error e) :
    step s = .refused (.signal e) := by
  simp [step, fetch, h, hd]

/-- What the next step is, and what it does, depends on `DATA_RX` in nothing but `DATA_RX`. -/
theorem forgetOutcome_step_withDataRx (s : State) (d : Buf 16) :
    forgetOutcome (step (s.withDataRx d)) = forgetOutcome (step s) := by
  cases hs : s.script with
  | nil =>
    rw [step_of_script_nil hs, step_of_script_nil (s := s.withDataRx d) hs]
    exact forgetOutcome_exec_withDataRx (mainInstr s) s d
  | cons inp rest =>
    cases hd : decode s.params (.event inp.event) with
    | error e => rw [step_of_decode_error hs hd, step_of_decode_error (s := s.withDataRx d) hs hd]
    | ok i =>
      rw [step_of_decode_ok hs hd, step_of_decode_ok (s := s.withDataRx d) hs hd]
      exact forgetOutcome_exec_withDataRx i (s.present inp rest) d

/-- Only an instruction that writes `DATA_RX` changes it. -/
theorem exec_changes_dataRx {i : Instr} {s t : State} (h : exec i s = .next t)
    (hd : t.dataRx ≠ s.dataRx) : writesDataRx i = true := by
  by_contra hw
  obtain ⟨-, rfl⟩ | ⟨-, rfl⟩ := exec_next h
  · exact hd (update_dataRx (Bool.eq_false_iff.mpr hw) s)
  · exact hd rfl

/-- A data delivery on an armed channel disarms it and parses the packet (R220). -/
theorem exec_usbDataOut_enabled {s : State} (hh : s.halted = false) (ha : s.dataArmed = true)
    (pkt : Packet) :
    exec (.usbDataOut pkt) s = .next (State.parseFrame { s with dataArmed := false } pkt) :=
  ifEnabled_enabled hh ha

/-- Settles O56: the states differ by an assignment to `DATA_RX`, which no step reads; an instruction
that does not write the buffer keeps it; a delivery that passes the checks stores its packet. -/
theorem dataRxIsNeverReadAgain : Obligations.DataRxIsNeverReadAgain := by
  refine ⟨fun s t h => ?_, fun s t i h hd => writesDataRx_cases (exec_changes_dataRx h hd),
    fun s b hh ha h0 h15 => ⟨_, exec_usbDataOut_enabled hh ha _, parseFrame_dataRx h0 h15⟩⟩
  rw [eq_withDataRx_of_forgetDataRx_eq h, forgetOutcome_step_withDataRx]

end Sys2Proof.Machine
end


section
/-! PROOFS. The bytes of an OPEN command that the translator does not read change nothing (R111).

The payload enters the core through `BT_DECODE` alone (R170), which reads bytes 0 to 4 and, of byte 8,
the three mode bits. Two payloads that agree there are translated alike, so the two commands differ only
in the message that `CMD_RX` holds. -/

namespace Sys2Proof.Machine

open Sys2Proof

/-- Bytes that agree under a mask test alike under every mask inside it. -/
theorem testMask_congr_of_subset {a b m n : Byte} (hn : m &&& n = n) (h : a &&& m = b &&& m) :
    testMask a n = testMask b n := by
  have key : a &&& n = b &&& n := by
    rw [← hn, ← BitVec.and_assoc, ← BitVec.and_assoc, h]
  rw [testMask, testMask, key]

/-- Each of three masks lies inside their union. -/
theorem or_or_and_each (x y z : Byte) :
    (x ||| y ||| z) &&& x = x ∧ (x ||| y ||| z) &&& y = y ∧ (x ||| y ||| z) &&& z = z := by
  refine ⟨?_, ?_, ?_⟩ <;> ext i hi <;> simp +contextual

/-- The prescaler is read from payload bytes 3 and 4 (R93). -/
theorem brpOf_congr {p q : Buf 10} (h3 : p[3] = q[3]) (h4 : p[4] = q[4]) : brpOf p = brpOf q := by
  have bytes (r : Buf 10) : memRead r 3 2 = r[3].toNat * 256 + r[4].toNat := by
    simp [memRead_succ, byteAt_of_lt]
  rw [brpOf, brpOf, bytes, bytes, h3, h4]

/-- `BT_DECODE` reads payload bytes 0 to 4 and the three mode bits of byte 8 (R170, R111). -/
theorem btDecode_congr {s : State} {p q : Buf 10} (h : ∀ k : Fin 5, p[k.val] = q[k.val])
    (h8 : p[8] &&& (s.params.cmSilent ||| s.params.cmLoopback ||| s.params.cmOneshot)
      = q[8] &&& (s.params.cmSilent ||| s.params.cmLoopback ||| s.params.cmOneshot)) :
    s.btDecode p = s.btDecode q := by
  have h0 : p[0] = q[0] := h 0
  have h1 : p[1] = q[1] := h 1
  have h2 : p[2] = q[2] := h 2
  have hbrp : brpOf p = brpOf q := brpOf_congr (h 3) (h 4)
  obtain ⟨hS, hL, hO⟩ := or_or_and_each s.params.cmSilent s.params.cmLoopback s.params.cmOneshot
  rw [State.btDecode, State.btDecode, h0, h1, h2, hbrp, testMask_congr_of_subset hS h8,
    testMask_congr_of_subset hL h8, testMask_congr_of_subset hO h8]

/-- The update of an OPEN, whole: its payload is translated and its message held in `CMD_RX`; nothing else
of it is read (R190, R196). -/
theorem update_cmdOpen (a : CmdArgs) (s : State) :
    update (.cmdOpen a) s = State.raise { s.btDecode a.payload with
      cmdArmed := false
      cmdRx := cmdMsg s.params 2#8 a
      cmdTx := withPayload s.cmdTx (zeros 10) } .open_ := by
  rw [update, acceptOpen_eq]; rfl

/-- OPEN commands whose payloads are translated alike have the same update, but for `CMD_RX`. -/
theorem update_cmdOpen_congr {s : State} {a b : CmdArgs}
    (h : s.btDecode a.payload = s.btDecode b.payload) :
    { update (.cmdOpen a) s with cmdRx := (update (.cmdOpen b) s).cmdRx } = update (.cmdOpen b) s := by
  rw [update_cmdOpen, update_cmdOpen, h]; rfl

/-- Whether an OPEN is enabled does not depend on its bytes (R190). -/
theorem enabled_cmdOpen_congr (a b : CmdArgs) (s : State) :
    enabled (.cmdOpen a) s = enabled (.cmdOpen b) s := rfl

/-- Settles O57: either both commands are enabled, and `BT_DECODE` cannot tell their payloads apart, or
neither is, and both leave the state as it was. -/
theorem ignoredBytesOfOpenAreIgnored : Obligations.IgnoredBytesOfOpenAreIgnored := by
  intro s t u a b h h8 ht hu
  have he := enabled_cmdOpen_congr a b s
  obtain ⟨ha, rfl⟩ | ⟨ha, rfl⟩ := exec_next ht
  · obtain ⟨-, rfl⟩ | ⟨hb, -⟩ := exec_next hu
    · exact update_cmdOpen_congr (btDecode_congr h h8)
    · simp [ha, hb] at he
  · obtain ⟨hb, -⟩ | ⟨-, rfl⟩ := exec_next hu
    · simp [ha, hb] at he
    · rfl

end Sys2Proof.Machine
end


section
/-! PROOFS. Who sets and who clears a flag (R140, R141, R145).

`RAISE` sets its one bit, `D_CLEAR` clears the bits of its snapshot. `exec_hasFlag` says for any
instruction at all what becomes of each flag: an instruction keeps all of them, raises one that it
produces, clears a snapshot as `D_CLEAR`, or drops them all as the reset event. -/

namespace Sys2Proof.Machine

open Sys2Proof

/-! ### RAISE -/

/-- `RAISE` in a core that is not halted makes its update (R140). -/
theorem exec_raise {s : State} (hh : s.halted = false) (f : Flag) :
    exec (.raise f) s = .next (s.raise f) :=
  ifEnabled_enabled hh rfl

/-- A flag that is set is set already: raising it changes nothing (R140). -/
theorem raiseBit_of_hasFlag {c : Params} {f : Flag} {w : FlagWord c} (h : hasFlag c w f = true) :
    raiseBit c f w = w := by
  refine BitVec.eq_of_getLsbD_eq fun i _ => ?_
  rw [raiseBit_getLsbD]
  by_cases e : i = (c.flagIx f).val
  · have hi : w.getLsbD i = true := by rw [e]; exact h
    rw [hi, Bool.true_or]
  · rw [decide_eq_false e, Bool.or_false]

theorem raise_of_hasFlag {s : State} {f : Flag} (h : hasFlag s.params s.flags f = true) :
    s.raise f = s := by
  rw [State.raise, raiseBit_of_hasFlag h]

/-- No flag is found at an index that is none of the six (R21). -/
theorem flagAt_eq_none {c : Params} {ix : Nat} (h : ∀ f : Flag, (c.flagIx f).val ≠ ix) :
    flagAt c ix = none :=
  List.find?_eq_none.mpr fun f _ => by simpa using h f

/-- `RAISE` of an index that is none of the six is no operation of the core (R140). -/
theorem decode_raise_noSuchFlag {c : Params} {ix : Nat} (h : ∀ f : Flag, (c.flagIx f).val ≠ ix) :
    decode c (.raise ix) = .error .noSuchFlag := by
  simp only [decode, flagAt_eq_none h]

/-- Settles O1: the update is `State.raise`, whose word is described bit by bit; an index without a flag
is not found by the decoder. -/
theorem raiseSetsExactlyOneBit : Obligations.RaiseSetsExactlyOneBit := by
  refine ⟨fun s f hh => exec_raise hh f, fun s t f hh h => ?_, fun c ix => decode_raise_noSuchFlag⟩
  obtain rfl : s.raise f = t := Host.Outcome.next.inj ((exec_raise hh f).symm.trans h)
  exact ⟨raiseBit_getLsbD s.params f s.flags, raise_of_hasFlag⟩

/-! ### D_CLEAR -/

/-- `D_CLEAR` in its phase, in a core that is not halted, makes its update (R145). -/
theorem exec_dClear {s : State} (hh : s.halted = false) (hp : s.dph = .clear) :
    exec .dClear s = .next s.clear :=
  ifEnabled_enabled hh (decide_eq_true hp)

/-- Settles O4: the update is `State.clear`, and `DSLOT + 1` is the next slot modulo 6. -/
theorem clearClearsExactlyTheSnapshot : Obligations.ClearClearsExactlyTheSnapshot :=
  fun s hh hp => ⟨s.clear, exec_dClear hh hp, rfl, clearBits_getLsbD s.dsnap s.flags⟩

/-! ### Any instruction -/

/-- The flags of a state can be read off its scheduler part, however that is written. -/
theorem hasFlag_of_view {v : SchedView} {t : State} (e : t.sched = v) (f : Flag) :
    hasFlag t.params t.flags f = hasFlag v.params v.flags f :=
  congrArg (fun v : SchedView => hasFlag v.params v.flags f) e

/-- `D_SAMPLE` writes no flag (R143). -/
theorem sample_hasFlag (s : State) (f : Flag) :
    hasFlag s.sample.params s.sample.flags f = hasFlag s.params s.flags f := by
  obtain ⟨-, e⟩ | ⟨-, e⟩ := sample_cases s <;> rw [e]

/-- `D_HANDLE` writes no flag, whichever handler it runs (R144). -/
theorem handle_hasFlag (s : State) (f : Flag) :
    hasFlag s.handle.params s.handle.flags f = hasFlag s.params s.flags f :=
  hasFlag_of_view (handle_sched s) f

/-- All an instruction can do to the flags: it keeps them, raises one that it produces, clears those of
the snapshot as `D_CLEAR`, or clears all six as the reset event (R140, R141, R145, R320). -/
theorem exec_hasFlag {i : Instr} {s t : State} (hw : s.params.wf = true) (h : exec i s = .next t) :
    (∀ f, hasFlag t.params t.flags f = hasFlag s.params s.flags f)
      ∨ (∃ g, produces g i = true
        ∧ ∀ f, hasFlag t.params t.flags f = (hasFlag s.params s.flags f || decide (f = g)))
      ∨ (i = .dClear ∧ ∀ f, hasFlag t.params t.flags f
          = (hasFlag s.params s.flags f && !hasFlag s.params s.dsnap f))
      ∨ (i = .resetEvent ∧ ∀ f, hasFlag t.params t.flags f = false) := by
  obtain e | ⟨g, hg, e⟩ | ⟨-, -, rfl⟩ | ⟨-, -, rfl⟩ | ⟨rfl, -, rfl⟩ | ⟨rfl, e⟩ := exec_sched h
  · exact .inl (hasFlag_of_sched e)
  · exact .inr (.inl ⟨g, hg, fun f => (hasFlag_of_view e f).trans (hasFlag_raiseBit hw g f s.flags)⟩)
  · exact .inl (sample_hasFlag s)
  · exact .inl (handle_hasFlag s)
  · exact .inr (.inr (.inl ⟨rfl, fun f => clearBits_getLsbD s.dsnap s.flags _⟩))
  · exact .inr (.inr (.inr ⟨rfl, fun f => (hasFlag_of_view e f).trans BitVec.getLsbD_zero⟩))

/-- A flag that an instruction sets is one that it produces (R141). -/
theorem produces_of_exec_sets {i : Instr} {s t : State} {f : Flag} (hw : s.params.wf = true)
    (h : exec i s = .next t) (hs : hasFlag s.params s.flags f = false)
    (ht : hasFlag t.params t.flags f = true) : produces f i = true := by
  obtain e | ⟨g, hg, e⟩ | ⟨-, e⟩ | ⟨-, e⟩ := exec_hasFlag hw h
  all_goals rw [e f] at ht
  · simp [hs] at ht
  · obtain rfl : f = g := by simpa [hs] using ht
    exact hg
  · simp [hs] at ht
  · cases ht

/-- An instruction that clears a flag is `D_CLEAR` or the reset event (R141, R145, R320). -/
theorem dClear_or_reset_of_exec_clears {i : Instr} {s t : State} {f : Flag} (hw : s.params.wf = true)
    (h : exec i s = .next t) (hs : hasFlag s.params s.flags f = true)
    (ht : hasFlag t.params t.flags f = false) : i = .dClear ∨ i = .resetEvent := by
  obtain e | ⟨g, -, e⟩ | ⟨rfl, -⟩ | ⟨rfl, -⟩ := exec_hasFlag hw h
  · simp [e f, hs] at ht
  · simp [e f, hs] at ht
  · exact .inl rfl
  · exact .inr rfl

/-- Settles O45: what sets a flag produces it, and no drain step produces one; what clears a flag is
`D_CLEAR`, a step of the main loop, or reset. -/
theorem onlyTheProducerRaisesAFlag : Obligations.OnlyTheProducerRaisesAFlag := by
  refine fun s t i f hw h => ⟨fun hs ht => ?_, fun hs ht => ?_⟩
  · have hp := produces_of_exec_sets hw h hs ht
    exact ⟨hp, agentOf_produces hp⟩
  · obtain rfl | rfl := dClear_or_reset_of_exec_clears hw h hs ht
    · exact .inr rfl
    · exact .inl rfl

end Sys2Proof.Machine
end


section
/-! PROOFS. The two stages of the bit-timing translator in numbers (R170 to R174).

`BT_DECODE` stores three wire bytes as their predecessors modulo 256, each cut to its field's width, and
the wire prescaler scaled by 3/2, which always fits its 17 bits. `BT_COMPUTE` hands the shifted fields out
and changes nothing else. -/

namespace Sys2Proof.Machine

open Sys2Proof

/-! ### BT_DECODE -/

/-- `BT_DECODE` in a core that is not halted makes its update (R170). -/
theorem exec_btDecode {s : State} (hh : s.halted = false) (p : Buf 10) :
    exec (.btDecode p) s = .next (s.btDecode p) :=
  ifEnabled_enabled hh rfl

/-- The low `k` bits of a wire byte's predecessor, as `((w - 1) mod 256) mod 2^k` (R171). -/
theorem toNat_lowBits_pred (w : Byte) {k : Nat} (hk : k ≤ 8) :
    (((w - 1#8) &&& BitVec.ofNat 8 (2 ^ k - 1)).setWidth k).toNat
      = (w.toNat + 255) % 256 % 2 ^ k := by
  have hpow : 2 ^ k ≤ 2 ^ 8 := Nat.pow_le_pow_right (by decide) hk
  have hmask : (2 ^ k - 1) % 2 ^ 8 = 2 ^ k - 1 := Nat.mod_eq_of_lt (by omega)
  have hpred : (w - 1#8).toNat = (w.toNat + 255) % 256 := by
    rw [BitVec.toNat_sub, Nat.add_comm]; rfl
  rw [BitVec.toNat_setWidth, BitVec.toNat_and, BitVec.toNat_ofNat, hmask,
    Nat.and_two_pow_sub_one_eq_mod, Nat.mod_mod, hpred]

theorem ts1Of_toNat (w : Byte) : (ts1Of w).toNat = (w.toNat + 255) % 256 % 16 :=
  toNat_lowBits_pred w (k := 4) (by decide)

theorem ts2Of_toNat (w : Byte) : (ts2Of w).toNat = (w.toNat + 255) % 256 % 8 :=
  toNat_lowBits_pred w (k := 3) (by decide)

theorem sjwOf_toNat (w : Byte) : (sjwOf w).toNat = (w.toNat + 255) % 256 % 4 :=
  toNat_lowBits_pred w (k := 2) (by decide)

/-- A wire prescaler of two bytes, scaled by 3/2, fits the 17 bits it is stored in (R172, R181). -/
theorem brpOf_toNat (p : Buf 10) :
    (brpOf p).toNat = (p[3].toNat * 256 + p[4].toNat) * 3 / 2 := by
  have hwire : memRead p 3 2 = p[3].toNat * 256 + p[4].toNat := by
    simp [memRead_succ, byteAt_of_lt]
  have hfits : (p[3].toNat * 256 + p[4].toNat) * 3 / 2 < 2 ^ 17 := by
    have h3 := p[3].isLt
    have h4 := p[4].isLt
    omega
  rw [brpOf, hwire, BitVec.toNat_ofNat]
  exact Nat.mod_eq_of_lt hfits

/-- A mask test asks whether the masked byte is not zero (R94). -/
theorem testMask_eq_decide (b m : Byte) : testMask b m = decide (b &&& m ≠ 0#8) := by
  rw [Bool.eq_iff_iff, testMask, bne_iff_ne, decide_eq_true_iff]

/-- Settles O5: the update is `State.btDecode`, an assignment to the seven fields whose values the lemmas
above give as numbers. -/
theorem decodeStoresTheDescriptor : Obligations.DecodeStoresTheDescriptor :=
  fun s p hh => ⟨s.btDecode p, exec_btDecode hh p, rfl, ts1Of_toNat p[0], ts2Of_toNat p[1],
    sjwOf_toNat p[2], brpOf_toNat p, testMask_eq_decide p[8] s.params.cmSilent,
    testMask_eq_decide p[8] s.params.cmLoopback, testMask_eq_decide p[8] s.params.cmOneshot⟩

/-! ### BT_COMPUTE -/

/-- `BT_COMPUTE` in a core that is not halted answers with the shifted fields and writes nothing else
(R174). -/
theorem exec_btCompute {s : State} (hh : s.halted = false) :
    exec .btCompute s = .next { s with result := .fields (regFields s) } :=
  ifEnabled_enabled hh rfl

/-- Settles O6: the four words are `regFields`, each the stored field shifted by its parameter. -/
theorem computeShiftsTheDescriptor : Obligations.ComputeShiftsTheDescriptor :=
  fun s hh => ⟨regFields s, rfl, rfl, rfl, rfl, exec_btCompute hh⟩

end Sys2Proof.Machine
end


section
/-! PROOFS. The command channel, row by row: what an accepted command leaves, what a response is, and what
the three command handlers do (R193 to R197, R210 to R214).

The laws give each operation's whole effect through `withPayload`, `raiseBit`, the translator's operand
functions and `respStatus`. The lemmas here write those out in the terms of the wire; each statement is
then the enabled step, with its effect so written. -/

namespace Sys2Proof.Machine

open Sys2Proof

/-! ### The payload and the descriptor, written out -/

/-- `CMD_TX` after R193: the ten payload bytes are 0, the other six kept. -/
theorem withPayload_zeros (tx : Buf 16) :
    withPayload tx (zeros 10) = #v[tx[0], tx[1], tx[2], tx[3], tx[4],
      0#8, 0#8, 0#8, 0#8, 0#8, 0#8, 0#8, 0#8, 0#8, 0#8, tx[15]] := by
  simp [withPayload]

/-- Storing a number in a field of `k` bits cuts it to `k` bits (R93, R171). -/
theorem eq_ofNat_of_toNat_eq_mod {k n : Nat} {x : BitVec k} (h : x.toNat = n % 2 ^ k) :
    x = BitVec.ofNat k n :=
  BitVec.eq_of_toNat_eq (h.trans (BitVec.toNat_ofNat n k).symm)

/-- The update of `BT_DECODE`, its stored fields as numbers cut to their width (R170). -/
theorem btDecode_eq_ofNat (s : State) (p : Buf 10) :
    s.btDecode p = { s with
      btTs1 := BitVec.ofNat 4 ((p[0].toNat + 255) % 256)
      btTs2 := BitVec.ofNat 3 ((p[1].toNat + 255) % 256)
      btSjw := BitVec.ofNat 2 ((p[2].toNat + 255) % 256)
      btBrp := BitVec.ofNat 17 ((p[3].toNat * 256 + p[4].toNat) * 3 / 2)
      cmS := decide (p[8] &&& s.params.cmSilent ≠ 0#8)
      cmL := decide (p[8] &&& s.params.cmLoopback ≠ 0#8)
      cmO := decide (p[8] &&& s.params.cmOneshot ≠ 0#8) } := by
  have hbrp : brpOf p = BitVec.ofNat 17 ((p[3].toNat * 256 + p[4].toNat) * 3 / 2) := by
    rw [← brpOf_toNat, BitVec.ofNat_toNat, BitVec.setWidth_eq]
  rw [State.btDecode, eq_ofNat_of_toNat_eq_mod (ts1Of_toNat p[0]),
    eq_ofNat_of_toNat_eq_mod (ts2Of_toNat p[1]), eq_ofNat_of_toNat_eq_mod (sjwOf_toNat p[2]), hbrp,
    testMask_eq_decide, testMask_eq_decide, testMask_eq_decide]

/-! ### Accepted commands -/

/-- Settles O8: the row's effect is `acceptVersion`, whose two payload writes are one. -/
theorem versionQueryIsAccepted : Obligations.VersionQueryIsAccepted := by
  intro s a hh ha
  have hx : exec (.getSoftwHardwVer a) s = .next (update (.getSoftwHardwVer a) s) :=
    ifEnabled_enabled hh ha
  rw [hx, update, acceptVersion_eq]
  rfl

/-- Settles O9: the row's update zeroes the payload and translates the descriptor. -/
theorem openIsAccepted : Obligations.OpenIsAccepted := by
  intro s a hh ha
  have hx : exec (.cmdOpen a) s = .next (update (.cmdOpen a) s) := ifEnabled_enabled hh ha
  rw [hx, update_cmdOpen, btDecode_eq_ofNat, withPayload_zeros]
  rfl

/-- Settles O10: the row's effect is `acceptClose`, which zeroes the payload. -/
theorem closeIsAccepted : Obligations.CloseIsAccepted := by
  intro s a hh ha
  have hx : exec (.cmdClose a) s = .next (update (.cmdClose a) s) := ifEnabled_enabled hh ha
  rw [hx, update, acceptClose_eq, withPayload_zeros]
  rfl

/-! ### Responses -/

/-- `SEND_RESPONSE` in a core that is not halted transmits the answer of R96 (R210). -/
theorem exec_sendResponse {s : State} (hh : s.halted = false) (ec : Byte) :
    exec (.sendResponse ec) s = .next (s.transmitResponse (answer s (respStatus ec))) := by
  rw [← sendResponse_eq]
  exact ifEnabled_enabled hh rfl

/-- Settles O14: what is transmitted is `answer`, with the status byte of R96. -/
theorem sendResponseEchoesAndRearms : Obligations.SendResponseEchoesAndRearms :=
  fun s ec hh => ⟨answer s (respStatus ec), rfl, exec_sendResponse hh ec⟩

/-! ### The three command handlers -/

/-- Settles O15: the handler of slot 0 transmits the answer that `SEND_RESPONSE(0)` does. -/
theorem versionHandlerRespondsSuccess : Obligations.VersionHandlerRespondsSuccess := by
  intro s hh
  have hx : exec .hVersion s = .next (s.transmitResponse (answer s 0x00#8)) := by
    rw [← handlerBody_zero]
    exact ifEnabled_enabled hh rfl
  exact ⟨hx.trans (exec_sendResponse hh 0#8).symm, hx⟩

/-- Settles O16: the handler of slot 1 calls with `openArgs`, the fields of `BT_COMPUTE` and the mode
latches, and keeps and answers the level on can_status. -/
theorem openHandlerOpensAndResponds : Obligations.OpenHandlerOpensAndResponds := by
  intro s hh
  have hx : exec .hOpen s = .next (handlerBody 1 s) := ifEnabled_enabled hh rfl
  rw [handlerBody_one] at hx
  exact ⟨answer s (respStatus s.canStatus), openArgs s, rfl, rfl, rfl, rfl, rfl, rfl, rfl, rfl, hx⟩

/-- The status a close is answered with: success when the component was closed already, or closes
(R252, R96). -/
theorem respStatus_closeStatus (s : State) :
    respStatus (closeStatus s)
      = if s.canOpenSt = false ∨ s.canStatus = 0#8 then 0x00#8 else 0xFF#8 := by
  cases ho : s.canOpenSt <;>
    simp [closeStatus, respStatus, Config.stOk, Config.respOk, Config.respFail, ho]

/-- Settles O17: the handler of slot 2 closes whatever the status, and answers it by `closeStatus`. -/
theorem closeHandlerClosesAndResponds : Obligations.CloseHandlerClosesAndResponds := by
  intro s hh
  have hx : exec .hClose s = .next (handlerBody 2 s) := ifEnabled_enabled hh rfl
  rw [handlerBody_two, respStatus_closeStatus] at hx
  exact ⟨_, rfl, hx⟩

end Sys2Proof.Machine
end


section
/-! PROOFS. `ERR_MAP`: one code for an error record, by priority (R233).

The four cases of `errCode`, each said once: a bit of the record decides the code only when every bit of
higher priority is off, and the receive class decides it only when all three bits are off. -/

namespace Sys2Proof.Machine

open Sys2Proof

/-- `ERR_MAP` in a core that is not halted answers with the code and writes nothing else (R233). -/
theorem exec_errMap {s : State} (hh : s.halted = false) (e : ErrRec) :
    exec (.errMap e) s = .next { s with result := .code (errCode e) } :=
  ifEnabled_enabled hh rfl

theorem errCode_of_busOff {e : ErrRec} (hb : e.bof = true) : errCode e = 0x04#8 := by
  simp [errCode, hb]

theorem errCode_of_errorPassive {e : ErrRec} (hb : e.bof = false) (hp : e.epv = true) :
    errCode e = 0x03#8 := by
  simp [errCode, hb, hp]

theorem errCode_of_errorWarning {e : ErrRec} (hb : e.bof = false) (hp : e.epv = false)
    (hw : e.ewg = true) : errCode e = 0x02#8 := by
  simp [errCode, hb, hp, hw]

theorem errCode_of_receiveClass {e : ErrRec} (hb : e.bof = false) (hp : e.epv = false)
    (hw : e.ewg = false) : errCode e = rxCode e.rxc := by
  simp [errCode, hb, hp, hw]

/-- The receive classes and their bytes, as the table of R233 lists them. -/
theorem rxCode_mem_table (r : RxClass) :
    (r, rxCode r) ∈ [(RxClass.none_, 0x00#8), (.overrun, 0x01#8), (.stuff, 0x20#8),
      (.form, 0x21#8), (.ack, 0x23#8), (.bitrec, 0x24#8), (.bitdom, 0x25#8),
      (.crc, 0x27#8), (.unknown, 0xFF#8)] := by
  cases r <;> decide

/-- Settles O23: the code is `errCode`, whose four cases are the clauses in their order of priority. -/
theorem errorMapByPriority : Obligations.ErrorMapByPriority := by
  refine fun s e hh => ⟨errCode e, exec_errMap hh e, errCode_of_busOff, errCode_of_errorPassive,
    errCode_of_errorWarning, fun hb hp hw => ?_⟩
  rw [errCode_of_receiveClass hb hp hw]
  exact rxCode_mem_table e.rxc

end Sys2Proof.Machine
end


section
/-! PROOFS. The three events of the CAN control component (R256 to R258).

Each event, in a core that is not halted, makes its one update; a reception does so exactly for the
frames of the interface, and any other frame is refused. -/

namespace Sys2Proof.Machine

open Sys2Proof

/-- The frames of the interface (R256, U14): at most eight bytes, and 11 bits of identifier unless the
frame is extended. -/
theorem inInterface_iff {f : Frame} :
    f.inInterface = true ↔ f.dlc.toNat ≤ 8 ∧ (f.ext = false → f.id.toNat < 2 ^ 11) := by
  cases he : f.ext <;> simp [Frame.inInterface, he]

/-- `CAN_ERR` in a core that is not halted keeps the mapped code and raises ERROR (R257). -/
theorem exec_canErr {s : State} (hh : s.halted = false) (e : ErrRec) :
    exec (.canErr e) s = .next (({ s with lastErr := errCode e } : State).raise .error) :=
  ifEnabled_enabled hh rfl

/-- `CAN_TX_DONE` in a core that is not halted writes its two latches, whatever they hold (R258). -/
theorem exec_canTxDone {s : State} (hh : s.halted = false) :
    exec .canTxDone s = .next { s with canTxBusy := false, dataArmed := true } :=
  ifEnabled_enabled hh rfl

/-- `CAN_RX_DONE` of a frame of the interface, in a core that is not halted, receives it (R256). -/
theorem exec_canRxDone {s : State} (hh : s.halted = false) {f : Frame} (hf : f.inInterface = true) :
    exec (.canRxDone f) s = .next (s.receive f) :=
  (if_pos hf).trans (ifEnabled_enabled hh rfl)

/-- Settles O24: the code that `ERR_MAP` answers is the one `CAN_ERR` stores, both being `errCode`. -/
theorem canErrorStoresTheCode : Obligations.CanErrorStoresTheCode :=
  fun _ e hh => ⟨errCode e, exec_errMap hh e, exec_canErr hh e⟩

/-- Settles O25: the update does not look at `CAN_TX_BUSY`. -/
theorem transmitCompletionRearms : Obligations.TransmitCompletionRearms :=
  fun _ hh => exec_canTxDone hh

/-- Settles O26: within the bounds the frame is of the interface, and the update is `State.receive`; a
dlc above 8 is outside it. -/
theorem receptionFillsTheSlot : Obligations.ReceptionFillsTheSlot := by
  refine ⟨fun s f hh hdlc hid => exec_canRxDone hh (inInterface_iff.mpr ⟨hdlc, hid⟩),
    fun s f hdlc => exec_canRxDone_outside (fun hf => ?_) s⟩
  exact absurd (inInterface_iff.mp hf).1 (Nat.not_le.mpr hdlc)

end Sys2Proof.Machine
end


section
/-! PROOFS. Who calls the CAN control component and who emits (R254).

`callsOf` names the calls that a step of an agent records: a reception its re-arm, `D_HANDLE` the call of
its slot's handler, and every other step none. A step outside `MAIN` appends these and leaves the two
sequences of messages and `CAN_OPEN_ST` alone; of the drain's part it changes nothing but to raise a
flag. -/

namespace Sys2Proof.Machine

open Sys2Proof

/-- The three output sequences (R40) and `CAN_OPEN_ST` (R34). -/
def State.outward (s : State) : List (Buf 16) × List (Buf 21) × List CanCall × Bool :=
  (s.outCmd, s.outData, s.canCalls, s.canOpenSt)

/-- An equation of `State.outward` is four, one for each of its parts. -/
theorem outward_eq_iff {s : State} {cmd : List (Buf 16)} {data : List (Buf 21)}
    {calls : List CanCall} {o : Bool} : s.outward = (cmd, data, calls, o) ↔
      s.outCmd = cmd ∧ s.outData = data ∧ s.canCalls = calls ∧ s.canOpenSt = o := by
  simp [State.outward]

/-- The calls the handler of a slot makes (R213, R214, R225). -/
def handlerCalls : Fin 6 → State → List CanCall
  | 1, s => [.open_ (openArgs s)]
  | 2, _ => [.close]
  | 3, s => [.txStart s.canTxSlot]
  | _, _ => []

/-- The calls a step of an agent records when it is enabled (R144, R256). -/
def callsOf : Instr → State → List CanCall
  | .canRxDone _, _ => [.rxRearm]
  | .dHandle, s => handlerCalls s.dslot s
  | _, _ => []

/-! ### Parsing and handlers -/

theorem acceptVersion_outward (s : State) : s.acceptVersion.outward = s.outward := by
  simp [State.outward, acceptVersion_eq]

theorem acceptOpen_outward (s : State) (p : Buf 10) : (s.acceptOpen p).outward = s.outward := by
  simp [State.outward, acceptOpen_eq]

theorem acceptClose_outward (s : State) : s.acceptClose.outward = s.outward := by
  simp [State.outward, acceptClose_eq]

theorem acceptFrame_outward (s : State) (fl : Byte) (idw : Word32) (dlc : Byte)
    (data : Buf 8) : (s.acceptFrame fl idw dlc data).outward = s.outward := by
  simp [State.outward, State.acceptFrame]

/-- Whatever the code of a command, accepting it emits and calls nothing (R194 to R207). -/
theorem dispatch_outward (s : State) (b : Buf 16) : (s.dispatch b).outward = s.outward := by
  unfold State.dispatch
  split_ifs
  · exact acceptVersion_outward s
  · exact acceptOpen_outward s _
  · exact acceptClose_outward s
  · rfl

/-- A command delivery emits and calls nothing (R191, R254). -/
theorem parseCommand_outward (s : State) (pkt : Packet) :
    (s.parseCommand pkt).outward = s.outward := by
  cases h : cmdFrame? s.params pkt with
  | none => rw [parseCommand_bad h]; rfl
  | some b => rw [parseCommand_framed h]; exact dispatch_outward { s with cmdRx := b } b

/-- A data delivery emits and calls nothing (R221, R254). -/
theorem parseFrame_outward (s : State) (pkt : Packet) : (s.parseFrame pkt).outward = s.outward := by
  cases h : dinFrame? s.params pkt with
  | none => rw [parseFrame_bad h]; rfl
  | some b => rw [parseFrame_framed h, acceptFrame_outward]; rfl

/-- A handler appends its own calls (R212 to R214, R225, R228, R230). -/
theorem handlerBody_canCalls (k : Fin 6) (s : State) :
    (handlerBody k s).canCalls = s.canCalls ++ handlerCalls k s := by
  match k with
  | 0 => rw [handlerBody_zero]; exact (List.append_nil _).symm
  | 1 => rw [handlerBody_one]; rfl
  | 2 => rw [handlerBody_two]; rfl
  | 3 => rfl
  | 4 => rw [handlerBody_four]; exact (List.append_nil _).symm
  | 5 => rw [handlerBody_five]; exact (List.append_nil _).symm

/-- Only the handler of slot 1 opens (R213). -/
theorem slot_of_open_mem {k : Fin 6} {s : State} {a : OpenArgs}
    (h : CanCall.open_ a ∈ handlerCalls k s) : k = 1 := by
  unfold handlerCalls at h
  split at h <;> simp at h ⊢

/-- Only the handler of slot 2 closes (R214). -/
theorem slot_of_close_mem {k : Fin 6} {s : State} (h : CanCall.close ∈ handlerCalls k s) :
    k = 2 := by
  unfold handlerCalls at h
  split at h <;> simp at h ⊢

/-- A call that is not the re-arm of reception is made by `D_HANDLE` (R254). -/
theorem dHandle_of_mem_callsOf {i : Instr} {s : State} {call : CanCall} (h : call ∈ callsOf i s)
    (hc : call ≠ .rxRearm) : i = .dHandle ∧ call ∈ handlerCalls s.dslot s := by
  unfold callsOf at h
  split at h
  · exact absurd (List.mem_singleton.mp h) hc
  · exact ⟨rfl, h⟩
  · cases h

/-- The one call outside `MAIN` is the re-arm of reception (R254, R256). -/
theorem callsOf_of_not_main {i : Instr} (hm : agentOf i ≠ some .main) (s : State) :
    callsOf i s = [] ∨ callsOf i s = [.rxRearm] := by
  unfold callsOf
  split
  · exact .inr rfl
  · exact absurd rfl hm
  · exact .inl rfl

theorem dph_of_enabled_dHandle {s : State} (h : enabled .dHandle s = true) : s.dph = .handle := by
  simp only [enabled, Bool.and_eq_true, decide_eq_true_eq] at h
  exact h.2

/-! ### Steps of agents -/

/-- A step outside `MAIN` makes the calls `callsOf` names, emits no message and leaves `CAN_OPEN_ST` as
it is; reset is the one exception (R254, R320). -/
theorem update_outward {i : Instr} (ha : agentOf i ≠ none) (hm : agentOf i ≠ some .main)
    (hr : i ≠ .resetEvent) (s : State) :
    (update i s).outCmd = s.outCmd ∧ (update i s).outData = s.outData
      ∧ (update i s).canCalls = s.canCalls ++ callsOf i s ∧ (update i s).canOpenSt = s.canOpenSt := by
  rw [← outward_eq_iff]
  cases i
  case dSample | dHandle | dClear => exact absurd rfl hm
  case resetEvent => exact absurd rfl hr
  case cmdResponse | dataOutCan | dataOutErr | raise | hVersion | hOpen | hClose | hTransmit | hError
    | hRxrdy | btDecode | btCompute | sendResponse | errMap | canOpen | canClose | canTxStart =>
    exact absurd rfl ha
  case canRxDone => rfl
  all_goals simp only [callsOf, List.append_nil]
  case usbCmdOut pkt => exact parseCommand_outward { s with cmdArmed := false } pkt
  case usbDataOut pkt => exact parseFrame_outward { s with dataArmed := false } pkt
  case getSoftwHardwVer => exact acceptVersion_outward _
  case cmdOpen => exact acceptOpen_outward _ _
  case cmdClose => exact acceptClose_outward _
  case dataIn => exact acceptFrame_outward _ _ _ _ _
  all_goals rfl

/-- A step of any agent but reset appends the calls `callsOf` names (R40). -/
theorem update_canCalls {i : Instr} (ha : agentOf i ≠ none) (hr : i ≠ .resetEvent) (s : State) :
    (update i s).canCalls = s.canCalls ++ callsOf i s := by
  by_cases hm : agentOf i = some .main
  · cases i
    case dSample =>
      obtain ⟨-, e⟩ | ⟨-, e⟩ := sample_cases s <;>
        · rw [update, e]; exact (List.append_nil _).symm
    case dHandle => exact handlerBody_canCalls s.dslot s
    case dClear => exact (List.append_nil _).symm
    all_goals cases hm
  · obtain ⟨-, -, hcalls, -⟩ := update_outward ha hm hr s
    exact hcalls

/-- A step of an agent that appends one call, not the re-arm of reception, is an enabled `D_HANDLE`, and
the call is its slot's handler's (R144, R254). -/
theorem dHandle_of_exec_appends {i : Instr} {s t : State} {call : CanCall}
    (h : exec i s = .next t) (ha : agentOf i ≠ none) (hc : t.canCalls = s.canCalls ++ [call])
    (hre : call ≠ .rxRearm) :
    i = .dHandle ∧ s.dph = .handle ∧ call ∈ handlerCalls s.dslot s := by
  obtain ⟨he, rfl⟩ | ⟨-, rfl⟩ := exec_next h
  · have hr : i ≠ .resetEvent := by
      rintro rfl
      exact List.append_ne_nil_of_right_ne_nil _ (List.cons_ne_nil _ _) hc.symm
    rw [update_canCalls ha hr] at hc
    have hcalls : callsOf i s = [call] := List.append_cancel_left hc
    obtain ⟨rfl, hk⟩ := dHandle_of_mem_callsOf (hcalls ▸ List.mem_singleton_self call) hre
    exact ⟨rfl, dph_of_enabled_dHandle he, hk⟩
  · exact absurd hc.symm (by simp)

/-- All a step outside `MAIN`, reset aside, can do to the scheduler's part: it writes a flag word that
keeps every bit set (R141, R254). -/
theorem exec_sched_of_not_main {i : Instr} {s t : State} (h : exec i s = .next t)
    (hm : agentOf i ≠ some .main) (hr : i ≠ .resetEvent) :
    ∃ w : FlagWord s.params, (∀ k : Nat, s.flags.getLsbD k = true → w.getLsbD k = true)
      ∧ t.sched = { s.sched with flags := w } := by
  obtain e | ⟨f, -, e⟩ | ⟨rfl, -⟩ | ⟨rfl, -⟩ | ⟨rfl, -⟩ | ⟨rfl, -⟩ := exec_sched h
  · exact ⟨s.flags, fun _ hk => hk, e⟩
  · refine ⟨raiseBit s.params f s.flags, fun k hk => ?_, e⟩
    rw [raiseBit_getLsbD, hk, Bool.true_or]
  · exact absurd rfl hm
  · exact absurd rfl hm
  · exact absurd rfl hm
  · exact absurd rfl hr

/-- A step outside `MAIN`, reset aside, clears no flag and leaves the drain's position alone (R254). -/
theorem exec_drain_of_not_main {i : Instr} {s t : State} (h : exec i s = .next t)
    (hm : agentOf i ≠ some .main) (hr : i ≠ .resetEvent) :
    (∀ k : Nat, s.flags.getLsbD k = true → t.flags.getLsbD k = true)
      ∧ t.dslot = s.dslot ∧ t.dph = s.dph ∧ t.dsnap.toNat = s.dsnap.toNat := by
  obtain ⟨w, hw, e⟩ := exec_sched_of_not_main h hm hr
  have hflags (k : Nat) : t.flags.getLsbD k = w.getLsbD k :=
    congrArg (fun v : SchedView => v.flags.getLsbD k) e
  exact ⟨fun k hk => (hflags k).trans (hw k hk), congrArg SchedView.dslot e, congrArg SchedView.dph e,
    congrArg (fun v : SchedView => v.dsnap.toNat) e⟩

/-- A step outside `MAIN`, reset aside, emits nothing, calls at most the re-arm of reception and leaves
`CAN_OPEN_ST` alone (R254). -/
theorem exec_outward_of_not_main {i : Instr} {s t : State} (h : exec i s = .next t)
    (ha : agentOf i ≠ none) (hm : agentOf i ≠ some .main) (hr : i ≠ .resetEvent) :
    t.outCmd = s.outCmd ∧ t.outData = s.outData
      ∧ (t.canCalls = s.canCalls ∨ t.canCalls = s.canCalls ++ [.rxRearm])
      ∧ t.canOpenSt = s.canOpenSt := by
  obtain ⟨-, rfl⟩ | ⟨-, rfl⟩ := exec_next h
  · obtain ⟨hcmd, hdata, hcalls, hopen⟩ := update_outward ha hm hr s
    refine ⟨hcmd, hdata, ?_, hopen⟩
    obtain e | e := callsOf_of_not_main hm s
    · exact .inl (by rw [hcalls, e, List.append_nil])
    · exact .inr (by rw [hcalls, e])
  · exact ⟨rfl, rfl, .inl rfl, rfl⟩

/-- Settles O52: a single call that is open or close is made by an enabled `D_HANDLE`, in the one slot
whose handler makes it; the steps outside `MAIN` keep what the two frame lemmas above say. -/
theorem onlyMainCallsAndEmits : Obligations.OnlyMainCallsAndEmits := by
  refine ⟨fun s t i call h ha hc => ⟨?_, ?_⟩, fun s t i h hr hagent => ?_⟩
  · rintro ⟨a, rfl⟩
    obtain ⟨hi, hph, hk⟩ := dHandle_of_exec_appends h ha hc (by simp)
    exact ⟨hi, hph, slot_of_open_mem hk⟩
  · rintro rfl
    obtain ⟨hi, hph, hk⟩ := dHandle_of_exec_appends h ha hc (by simp)
    exact ⟨hi, hph, slot_of_close_mem hk⟩
  · have ha : agentOf i ≠ none := by rcases hagent with e | e | e <;> simp [e]
    have hm : agentOf i ≠ some .main := by rcases hagent with e | e | e <;> simp [e]
    obtain ⟨hflags, hdrain⟩ := exec_drain_of_not_main h hm hr
    obtain ⟨hcmd, hdata, hcalls, hopen⟩ := exec_outward_of_not_main h ha hm hr
    exact ⟨hcmd, hdata, hcalls, hflags, hopen, hdrain⟩

end Sys2Proof.Machine
end


section
/-! PROOFS. Encoding and decoding are inverse to each other (30_encoding.md).

Each format is settled once, in both directions: the two command formats through `cmdMsg` and the row of
the code, `DIN16` through `dinMsg`, `DOUT21` through `dout21`, a flag through its index. The two round
trips then split over the instruction and over the signal. -/

namespace Sys2Proof.Machine

open Sys2Proof

/-! ### The parts of well-formed parameters that the formats need -/

/-- A packet of 16 bytes can be delivered (R6). -/
theorem usbMaxpkt_of_wf {c : Params} (h : c.wf = true) : 16 ≤ c.usbMaxpkt := by
  simp only [Params.wf, Bool.and_eq_true, decide_eq_true_eq] at h
  exact h.2

/-- Under well-formed parameters the flag at the index of a flag is that flag (R21). -/
theorem flagAt_flagIx {c : Params} (h : c.wf = true) (f : Flag) :
    flagAt c (c.flagIx f).val = some f := by
  cases hg : flagAt c (c.flagIx f).val with
  | none =>
    have hall := List.find?_eq_none.mp hg f (by cases f <;> simp [Flag.all])
    simp at hall
  | some g => rw [flagIx_injective h (flagAt_some hg)]

/-! ### Command messages -/

/-- A request row is encoded as its message, whichever its code (R91, R92). -/
theorem encode_cmdRow (c : Params) (code : Byte) (a : CmdArgs) :
    encode c (cmdRow code a) = cmdSignal c code a :=
  cmdRow_cases (motive := fun code i => encode c i = cmdSignal c code a) a
    rfl rfl rfl rfl rfl rfl rfl rfl rfl rfl rfl rfl (fun _ _ => rfl) code

theorem wf_cmdRow (c : Params) (code : Byte) (a : CmdArgs) : (cmdRow code a).wf c = true :=
  cmdRow_cases (motive := fun _ i => i.wf c = true) a
    rfl rfl rfl rfl rfl rfl rfl rfl rfl rfl rfl rfl (fun code h => by simp [Instr.wf, h]) code

/-- The packet of a request decodes to the row of its code (R91, R118). -/
theorem decode_cmdSignal {c : Params} (h : c.wf = true) (code : Byte) (a : CmdArgs) :
    decode c (cmdSignal c code a) = .ok (cmdRow code a) := by
  have hlen : (cmdMsg c code a).toList.length ≤ c.usbMaxpkt := by simpa using usbMaxpkt_of_wf h
  have hrow : cmdRow (cmdMsg c code a)[2] (cmdArgsOf (cmdMsg c code a)) = cmdRow code a := by
    rw [cmdArgsOf_cmdMsg]; rfl
  simp only [decode, cmdSignal, decodeEvent, if_pos hlen, decodeCmd, cmdFrame?_cmdMsg, hrow]

/-- A delivered command packet is the encoding of what it decodes to (R118). -/
theorem encode_decodeCmd {c : Params} {pkt : Packet} (hlen : pkt.length ≤ c.usbMaxpkt) :
    encode c (decodeCmd c pkt) = .event (.cmd pkt) ∧ (decodeCmd c pkt).wf c = true := by
  unfold decodeCmd
  split
  next b hb =>
    obtain ⟨rfl, h0, h15⟩ := cmdFrame?_eq_some.mp hb
    rw [encode_cmdRow, cmdSignal, cmdMsg_cmdArgsOf h0 h15]
    exact ⟨rfl, wf_cmdRow c _ _⟩
  next hb => exact ⟨rfl, by simp [Instr.wf, hlen, hb]⟩

/-! ### Data messages -/

theorem dinFrame?_dinMsg (c : Params) (fl : Byte) (idw : Word32) (dlc : Byte) (data : Buf 8) :
    dinFrame? c (dinMsg c fl idw dlc data).toList = some (dinMsg c fl idw dlc data) := by
  rw [dinFrame?_eq_some, dinMsg_eq]
  exact ⟨rfl, rfl, rfl⟩

/-- The packet of an inbound data message decodes to its row (R97). -/
theorem decode_dinMsg {c : Params} (h : c.wf = true) (fl : Byte) (idw : Word32) (dlc : Byte)
    (data : Buf 8) :
    decode c (.event (.data (dinMsg c fl idw dlc data).toList)) = .ok (.dataIn fl idw dlc data) := by
  have hlen : (dinMsg c fl idw dlc data).toList.length ≤ c.usbMaxpkt := by
    simpa using usbMaxpkt_of_wf h
  simp only [decode, decodeEvent, if_pos hlen, decodeData, dinFrame?_dinMsg, dinRow_dinMsg]

/-- A delivered data packet is the encoding of what it decodes to (R118). -/
theorem encode_decodeData {c : Params} {pkt : Packet} (hlen : pkt.length ≤ c.usbMaxpkt) :
    encode c (decodeData c pkt) = .event (.data pkt) ∧ (decodeData c pkt).wf c = true := by
  unfold decodeData
  split
  next b hb =>
    obtain ⟨rfl, h0, h15⟩ := dinFrame?_eq_some.mp hb
    exact ⟨congrArg (fun m : Buf 16 => Signal.event (.data m.toList)) (dinMsg_of_framed h0 h15), rfl⟩
  next hb => exact ⟨rfl, by simp [Instr.wf, hlen, hb]⟩

/-- The encoding of an outbound message is the 21 bytes of R98. -/
theorem encode_dataOutCan (c : Params) (fl : Byte) (idw : Word32) (dlc : Byte) (data : Buf 8)
    (ts : Word32) :
    encode c (.dataOutCan fl idw dlc data ts)
      = .usbDataIn (dout21 c Config.typeCan fl idw dlc data ts).toList := by
  rw [encode, doutWrite_eq]

theorem encode_dataOutErr (c : Params) (code : Byte) (ts : Word32) :
    encode c (.dataOutErr code ts)
      = .usbDataIn (dout21 c Config.typeErr c.fbErr 0#32 0#8 (errData code) ts).toList := by
  rw [encode, doutWrite_eq]

/-- Byte 1 of an outbound message is its type (R98, R100). -/
theorem dout21_type (c : Params) (ty fl : Byte) (idw : Word32) (dlc : Byte) (d : Buf 8)
    (ts : Word32) : (dout21 c ty fl idw dlc d ts)[1] = ty := rfl

theorem decode_dout21_can (c : Params) (fl : Byte) (idw : Word32) (dlc : Byte) (data : Buf 8)
    (ts : Word32) :
    decodeDout c (dout21 c Config.typeCan fl idw dlc data ts)
      = .ok (.dataOutCan fl idw dlc data ts) := by
  obtain ⟨hid, hdata, hts⟩ := dout21_fields c Config.typeCan fl idw dlc data ts
  rw [decodeDout, if_pos ⟨rfl, rfl⟩, dout21_type, if_pos rfl, hid, hdata, hts, BitVec.ofNat_toNat,
    BitVec.setWidth_eq]
  rfl

theorem decode_dout21_err (c : Params) (code : Byte) (ts : Word32) :
    decodeDout c (dout21 c Config.typeErr c.fbErr 0#32 0#8 (errData code) ts)
      = .ok (.dataOutErr code ts) := by
  obtain ⟨hid, hdata, hts⟩ := dout21_fields c Config.typeErr c.fbErr 0#32 0#8 (errData code) ts
  rw [decodeDout, if_pos ⟨rfl, rfl⟩, dout21_type, if_neg (by decide),
    if_pos ⟨rfl, rfl, hid, rfl, hdata⟩, hts]
  rfl

/-- A message at the data IN port is the encoding of what it decodes to (R98, R102). -/
theorem encode_of_decodeDout {c : Params} {b : Buf 21} {i : Instr} (h : decodeDout c b = .ok i) :
    encode c i = .usbDataIn b.toList ∧ i.wf c = true := by
  unfold decodeDout at h
  split_ifs at h with hm hcan herr
  · cases h
    rw [encode_dataOutCan, ← hcan, dout21_of_framed hm.1 hm.2]
    exact ⟨rfl, rfl⟩
  · cases h
    obtain ⟨hty, hfl, hid, hdlc, hdata⟩ := herr
    have hb := dout21_of_framed hm.1 hm.2
    rw [hty, hfl, hid, hdlc, hdata] at hb
    rw [encode_dataOutErr]
    exact ⟨congrArg (fun m : Buf 21 => Signal.usbDataIn m.toList) hb, rfl⟩

/-! ### Events, drain slots -/

/-- An event at an in-port is the encoding of what it decodes to (R43, R118). -/
theorem encode_of_decodeEvent {c : Params} {e : Event} {i : Instr} (h : decodeEvent c e = .ok i) :
    encode c i = .event e ∧ i.wf c = true := by
  cases e <;> simp only [decodeEvent] at h
  case cmd pkt => split_ifs at h with hlen; cases h; exact encode_decodeCmd hlen
  case data pkt => split_ifs at h with hlen; cases h; exact encode_decodeData hlen
  case canrx f => split_ifs at h with hf; cases h; exact ⟨rfl, hf⟩
  all_goals (cases h; exact ⟨rfl, rfl⟩)

/-- A drain slot is the encoding of its handler (R144). -/
theorem encode_of_handlerRow {c : Params} {k : Nat} {i : Instr} (h : handlerRow k = some i) :
    encode c i = .slot k ∧ i.wf c = true := by
  unfold handlerRow at h
  split at h <;> cases h <;> exact ⟨rfl, rfl⟩

/-! ### The two round trips -/

/-- Settles O36, by the row of the instruction: the message formats by their lemmas, the PORT rows by
their signal, whose limits are the instruction's well-formedness. -/
theorem decodeOfEncodeIsTheInstruction : Obligations.DecodeOfEncodeIsTheInstruction := by
  intro c i hc hi
  cases i
  case getSoftwHardwVer a => exact decode_cmdSignal hc 12#8 a
  case cmdOpen a => exact decode_cmdSignal hc 2#8 a
  case cmdClose a => exact decode_cmdSignal hc 3#8 a
  case cmdReset a => exact decode_cmdSignal hc 1#8 a
  case setSpeed a => exact decode_cmdSignal hc 4#8 a
  case setMaskFilter a => exact decode_cmdSignal hc 5#8 a
  case getStatus a => exact decode_cmdSignal hc 6#8 a
  case getStatistics a => exact decode_cmdSignal hc 7#8 a
  case getSerial a => exact decode_cmdSignal hc 8#8 a
  case getSoftwVer a => exact decode_cmdSignal hc 9#8 a
  case getHardwVer a => exact decode_cmdSignal hc 10#8 a
  case resetTimestamp a => exact decode_cmdSignal hc 11#8 a
  case cmdUnrecognized code a =>
    have hcode : hasOwnRow code = false := by simpa [Instr.wf] using hi
    rw [← cmdRow_of_not_hasOwnRow hcode a, encode_cmdRow]
    exact decode_cmdSignal hc code a
  case cmdResponse command a =>
    simp only [encode, decode, cmdFrame?_cmdMsg, cmdArgsOf_cmdMsg]
    rfl
  case dataIn fl idw dlc data => exact decode_dinMsg hc fl idw dlc data
  case dataOutCan fl idw dlc data ts =>
    rw [encode_dataOutCan, decode, toBuf_toList]
    exact decode_dout21_can c fl idw dlc data ts
  case dataOutErr code ts =>
    rw [encode_dataOutErr, decode, toBuf_toList]
    exact decode_dout21_err c code ts
  case raise f => simp only [encode, decode, flagAt_flagIx hc]
  case usbCmdOut pkt =>
    simp only [Instr.wf, Bool.and_eq_true, decide_eq_true_eq, Option.isNone_iff_eq_none] at hi
    simp only [encode, decode, decodeEvent, if_pos hi.1, decodeCmd, hi.2]
  case usbDataOut pkt =>
    simp only [Instr.wf, Bool.and_eq_true, decide_eq_true_eq, Option.isNone_iff_eq_none] at hi
    simp only [encode, decode, decodeEvent, if_pos hi.1, decodeData, hi.2]
  case canTxStart f => exact if_pos hi
  case canRxDone f => exact if_pos hi
  all_goals rfl

/-- What the decoder accepts is the encoding of its answer (R118). -/
theorem encode_of_decode {c : Params} {sig : Signal} {i : Instr} (h : decode c sig = .ok i) :
    encode c i = sig ∧ i.wf c = true := by
  cases sig <;> simp only [decode] at h
  case event e => exact encode_of_decodeEvent h
  case usbCmdIn msg =>
    split at h <;> cases h
    next b hb =>
    obtain ⟨rfl, h0, h15⟩ := cmdFrame?_eq_some.mp hb
    rw [encode, cmdMsg_cmdArgsOf h0 h15]
    exact ⟨rfl, rfl⟩
  case usbDataIn msg =>
    split at h
    next b hb =>
      rw [toBuf_eq_some.mp hb]
      exact encode_of_decodeDout h
    next => cases h
  case slot k =>
    split at h <;> cases h
    next hk => exact encode_of_handlerRow hk
  case canTxStartReq f => split_ifs at h with hf; cases h; exact ⟨rfl, hf⟩
  case raise ix =>
    split at h <;> cases h
    next f hf => exact ⟨congrArg Signal.raise (flagAt_some hf), rfl⟩
  all_goals (cases h; exact ⟨rfl, rfl⟩)

/-- Settles O37, by the lemma above, which splits over the signal. -/
theorem encodeOfDecodeIsTheSignal : Obligations.EncodeOfDecodeIsTheSignal :=
  fun _ _ _ => encode_of_decode

end Sys2Proof.Machine
end


section
/-! PROOFS. The sticky latches, the parameters and the script, for any instruction at all (10_state.md
sections 5 and 10 (e)). -/

namespace Sys2Proof.Machine

open Sys2Proof

/-- What an update leaves of the build and the environment, and of the two sticky latches (R35, R36). -/
structure Sticky (s t : State) : Prop where
  params : t.params = s.params
  script : t.script = s.script
  fault : s.fault = true → t.fault = true
  halted : s.halted = true → t.halted = true

/-- A parse of a command packet can only set `FAULT` (R191, R281, R282). -/
theorem sticky_parseCommand (s : State) (pkt : Packet) : Sticky s (s.parseCommand pkt) := by
  cases h : cmdFrame? s.params pkt with
  | none => rw [parseCommand_bad h]; exact ⟨rfl, rfl, fun _ => rfl, id⟩
  | some b =>
    rw [parseCommand_framed h, State.dispatch]
    split_ifs
    · exact ⟨rfl, rfl, id, id⟩
    · exact ⟨rfl, rfl, id, id⟩
    · exact ⟨rfl, rfl, id, id⟩
    · exact ⟨rfl, rfl, fun _ => rfl, id⟩

theorem sticky_parseFrame (s : State) (pkt : Packet) : Sticky s (s.parseFrame pkt) := by
  cases h : dinFrame? s.params pkt with
  | none => rw [parseFrame_bad h]; exact ⟨rfl, rfl, fun _ => rfl, id⟩
  | some b => rw [parseFrame_framed h]; exact ⟨rfl, rfl, id, id⟩

/-- A handler writes none of them (R144). -/
theorem sticky_handlerBody (k : Fin 6) (s : State) : Sticky s (handlerBody k s) := by
  obtain ⟨_, _, _, _, _, _, _, _, e⟩ := handlerBody_eq k s
  rw [e]
  exact ⟨rfl, rfl, id, id⟩

/-- All `D_SAMPLE` can write: the drain's position and the snapshot (R143). -/
theorem sample_eq (s : State) :
    ∃ dslot dph dsnap, s.sample = { s with dslot := dslot, dph := dph, dsnap := dsnap } := by
  obtain ⟨-, e⟩ | ⟨-, e⟩ := sample_cases s
  · exact ⟨_, _, _, e⟩
  · exact ⟨_, _, _, e⟩

/-- Every update but reset's. -/
theorem sticky_update {i : Instr} (hi : i ≠ .resetEvent) (s : State) : Sticky s (update i s) := by
  cases i
  case resetEvent => exact absurd rfl hi
  case usbCmdOut pkt =>
    obtain ⟨hp, hs, hf, hh⟩ := sticky_parseCommand { s with cmdArmed := false } pkt
    exact ⟨hp, hs, hf, hh⟩
  case usbDataOut pkt =>
    obtain ⟨hp, hs, hf, hh⟩ := sticky_parseFrame { s with dataArmed := false } pkt
    exact ⟨hp, hs, hf, hh⟩
  case dSample =>
    obtain ⟨_, _, _, e⟩ := sample_eq s
    rw [update, e]
    exact ⟨rfl, rfl, id, id⟩
  case dHandle =>
    obtain ⟨hp, hs, hf, hh⟩ := sticky_handlerBody s.dslot s
    exact ⟨hp, hs, hf, hh⟩
  case hVersion => exact sticky_handlerBody 0 s
  case hOpen => exact sticky_handlerBody 1 s
  case hClose => exact sticky_handlerBody 2 s
  case hTransmit => exact sticky_handlerBody 3 s
  case hError => exact sticky_handlerBody 4 s
  case hRxrdy => exact sticky_handlerBody 5 s
  case cmdReset | setSpeed | setMaskFilter | getStatus | getStatistics | getSerial | getSoftwVer
    | getHardwVer | resetTimestamp | cmdUnrecognized => exact ⟨rfl, rfl, fun _ => rfl, id⟩
  case procException => exact ⟨rfl, rfl, fun _ => rfl, fun _ => rfl⟩
  all_goals exact ⟨rfl, rfl, id, id⟩

/-- No instruction changes the parameters or the script (R6, R117). -/
theorem exec_env {i : Instr} {s t : State} (h : exec i s = .next t) :
    t.params = s.params ∧ t.script = s.script := by
  obtain ⟨-, rfl⟩ | ⟨-, rfl⟩ := exec_next h
  · by_cases hi : i = .resetEvent
    · subst hi
      exact ⟨rfl, rfl⟩
    · exact ⟨(sticky_update hi s).params, (sticky_update hi s).script⟩
  · exact ⟨rfl, rfl⟩

/-- Settles O43: an instruction leaves the state as it was or makes its update, and only reset's update
touches the latches downwards. -/
theorem onlyResetClearsFaultAndHalted : Obligations.OnlyResetClearsFaultAndHalted := by
  intro s t i h
  obtain ⟨hparams, hscript⟩ := exec_env h
  refine ⟨hparams, hscript, fun hi => ?_⟩
  obtain ⟨-, rfl⟩ | ⟨-, rfl⟩ := exec_next h
  · exact ⟨(sticky_update hi s).fault, (sticky_update hi s).halted⟩
  · exact ⟨id, id⟩

end Sys2Proof.Machine
end


section
/-! PROOFS. All a step of an agent can do, said once (R294 to R297).

`AgentStep i s t` lists the updates of the instructions that an agent takes as steps of its own, one
constructor per kind of step, each with the condition that enabled it. `exec_agentStep` ties it to
`exec`, `step_agentStep` to `step`; the invariants and the whole-machine rules are case splits over it. -/

namespace Sys2Proof.Machine

open Sys2Proof

/-! ### The stored descriptor -/

/-- What `BT_DECODE` writes: the bit-timing descriptor and the mode latches (R24, R25). -/
structure Descriptor where
  sjw : BitVec 2
  ts1 : BitVec 4
  ts2 : BitVec 3
  brp : BitVec 17
  silent : Bool
  loopback : Bool
  oneshot : Bool

/-- The descriptor and mode latches a state holds. -/
def State.descriptor (s : State) : Descriptor :=
  ⟨s.btSjw, s.btTs1, s.btTs2, s.btBrp, s.cmS, s.cmL, s.cmO⟩

/-- The state with another descriptor and other mode latches. -/
def State.withDescriptor (s : State) (d : Descriptor) : State :=
  { s with
    btSjw := d.sjw, btTs1 := d.ts1, btTs2 := d.ts2, btBrp := d.brp
    cmS := d.silent, cmL := d.loopback, cmO := d.oneshot }

/-- A translated prescaler is in its range (R24, R181). -/
theorem brpOf_le (p : Buf 10) : (brpOf p).toNat ≤ 98302 := by
  have h3 := p[3].isLt
  have h4 := p[4].isLt
  rw [brpOf_toNat]
  omega

/-! ### The updates of the agents' steps -/

/-- An accepted command of flag `f`: its message held, the channel disarmed, the descriptor and the
response payload prepared, the flag raised (R193 to R197). -/
def State.accept (s : State) (f : Flag) (msg : Buf 16) (p : Buf 10) (d : Descriptor) : State :=
  State.raise { s.withDescriptor d with
    cmdArmed := false
    cmdRx := msg
    cmdTx := withPayload s.cmdTx p } f

/-- A rejected command packet: some bytes in `CMD_RX`, the channel disarmed, `FAULT` set (R192, R207). -/
def State.rejectCommand (s : State) (bytes : Buf 16) (n : Nat) : State :=
  { s with cmdArmed := false, cmdRx := bytes, fault := true, draws := n }

/-- A rejected data packet (R223). -/
def State.rejectData (s : State) (bytes : Buf 16) (n : Nat) : State :=
  { s with dataArmed := false, dataRx := bytes, fault := true, draws := n }

/-- What a step of an agent does when it is enabled. -/
inductive AgentStep : Instr → State → State → Prop
  /-- a command delivery that is accepted; the descriptor is kept or translated in its range -/
  | accept {i : Instr} {s : State} {f : Flag} {code : Byte} {msg : Buf 16} (p : Buf 10)
      {d : Descriptor} (agent : agentOf i = some .uisr) (armed : s.cmdArmed = true)
      (flag_code : codeOf f = some code) (msg_code : msg[2] = code)
      (range : d.brp = s.btBrp ∨ d.brp.toNat ≤ 98302) : AgentStep i s (s.accept f msg p d)
  /-- a command delivery that is rejected -/
  | rejectCommand {i : Instr} {s : State} (bytes : Buf 16) (n : Nat) (agent : agentOf i = some .uisr)
      (armed : s.cmdArmed = true) : AgentStep i s (s.rejectCommand bytes n)
  /-- a data delivery that is parsed -/
  | acceptData {i : Instr} {s : State} (msg : Buf 16) (fl : Byte) (idw : Word32) (dlc : Byte)
      (data : Buf 8) (agent : agentOf i = some .uisr) (armed : s.dataArmed = true) :
      AgentStep i s (State.acceptFrame { s with dataArmed := false, dataRx := msg } fl idw dlc data)
  /-- a data delivery that is rejected -/
  | rejectData {i : Instr} {s : State} (bytes : Buf 16) (n : Nat) (agent : agentOf i = some .uisr)
      (armed : s.dataArmed = true) : AgentStep i s (s.rejectData bytes n)
  | init {s : State} : AgentStep .usbInit s { s with cmdArmed := true, dataArmed := true }
  | deinit {s : State} : AgentStep .usbDeinit s { s with cmdArmed := false, dataArmed := false }
  | receive {s : State} {f : Frame} (inside : f.inInterface = true) :
      AgentStep (.canRxDone f) s (s.receive f)
  | canErr {s : State} (e : ErrRec) :
      AgentStep (.canErr e) s (State.raise { s with lastErr := errCode e } .error)
  | canTxDone {s : State} : AgentStep .canTxDone s { s with canTxBusy := false, dataArmed := true }
  | sample {s : State} (phase : s.dph = .sample) : AgentStep .dSample s s.sample
  | handle {s : State} (phase : s.dph = .handle) : AgentStep .dHandle s s.handle
  | clear {s : State} (phase : s.dph = .clear) : AgentStep .dClear s s.clear
  | procException {s : State} : AgentStep .procException s { s with fault := true, halted := true }
  | reset {s : State} : AgentStep .resetEvent s (update .resetEvent s)

/-! ### Deliveries -/

/-- A message that passed the three checks is accepted with the flag of its code, or rejected (R194). -/
theorem agentStep_dispatch {i : Instr} {s : State} (msg : Buf 16) (hi : agentOf i = some .uisr)
    (ha : s.cmdArmed = true) :
    AgentStep i s (State.dispatch { s with cmdArmed := false, cmdRx := msg } msg) := by
  unfold State.dispatch
  split_ifs with h12 h2 h3
  · rw [acceptVersion_eq]
    exact .accept (f := .version) (d := s.descriptor) versionPayload hi ha rfl h12 (.inl rfl)
  · rw [acceptOpen_eq]
    exact .accept (f := .open_) (d := (s.btDecode (slice msg 5 10)).descriptor) (zeros 10) hi ha rfl
      h2 (.inr (brpOf_le _))
  · rw [acceptClose_eq]
    exact .accept (f := .close) (d := s.descriptor) (zeros 10) hi ha rfl h3 (.inl rfl)
  · exact .rejectCommand msg s.draws hi ha

/-- Any command packet delivered on an armed channel (R190, R191). -/
theorem agentStep_usbCmdOut {s : State} (pkt : Packet) (ha : s.cmdArmed = true) :
    AgentStep (.usbCmdOut pkt) s (update (.usbCmdOut pkt) s) := by
  rw [update]
  cases h : cmdFrame? s.params pkt with
  | none =>
    rw [parseCommand_bad (s := { s with cmdArmed := false }) h]
    exact .rejectCommand _ _ rfl ha
  | some b =>
    rw [parseCommand_framed (s := { s with cmdArmed := false }) h]
    exact agentStep_dispatch b rfl ha

/-- Any data packet delivered on an armed channel (R220, R221). -/
theorem agentStep_usbDataOut {s : State} (pkt : Packet) (ha : s.dataArmed = true) :
    AgentStep (.usbDataOut pkt) s (update (.usbDataOut pkt) s) := by
  rw [update]
  cases h : dinFrame? s.params pkt with
  | none =>
    rw [parseFrame_bad (s := { s with dataArmed := false }) h]
    exact .rejectData _ _ rfl ha
  | some b =>
    rw [parseFrame_framed (s := { s with dataArmed := false }) h]
    exact .acceptData b _ _ _ _ rfl ha

/-! ### `exec` and `step` -/

/-- The update of an enabled instruction that an agent takes is one of those listed. -/
theorem agentStep_of_enabled {i : Instr} {s : State} (ha : agentOf i ≠ none)
    (hf : ∀ f, i = .canRxDone f → f.inInterface = true) (he : enabled i s = true) :
    AgentStep i s (update i s) := by
  cases i
  case cmdResponse | dataOutCan | dataOutErr | raise | hVersion | hOpen | hClose | hTransmit | hError
    | hRxrdy | btDecode | btCompute | sendResponse | errMap | canOpen | canClose | canTxStart =>
    exact absurd rfl ha
  case canRxDone f => exact .receive (hf f rfl)
  all_goals simp only [enabled, Bool.and_eq_true, decide_eq_true_eq] at he
  case getSoftwHardwVer a =>
    rw [update, acceptVersion_eq]
    exact .accept (f := .version) (d := s.descriptor) versionPayload rfl he.2 rfl rfl (.inl rfl)
  case cmdOpen a =>
    rw [update_cmdOpen]
    exact .accept (d := (s.btDecode a.payload).descriptor) (zeros 10) rfl he.2 rfl rfl
      (.inr (brpOf_le _))
  case cmdClose a =>
    rw [update, acceptClose_eq]
    exact .accept (f := .close) (d := s.descriptor) (zeros 10) rfl he.2 rfl rfl (.inl rfl)
  case cmdReset | setSpeed | setMaskFilter | getStatus | getStatistics | getSerial | getSoftwVer
    | getHardwVer | resetTimestamp | cmdUnrecognized => exact .rejectCommand _ s.draws rfl he.2
  case usbCmdOut pkt => exact agentStep_usbCmdOut pkt he.2
  case dataIn => exact .acceptData _ _ _ _ _ rfl he.2
  case usbDataOut pkt => exact agentStep_usbDataOut pkt he.2
  case usbInit => exact .init
  case usbDeinit => exact .deinit
  case canErr e => exact .canErr e
  case canTxDone => exact .canTxDone
  case dSample => exact .sample he.2
  case dHandle => exact .handle he.2
  case dClear => exact .clear he.2
  case procException => exact .procException
  case resetEvent => exact .reset

/-- All `exec` of an instruction that an agent takes can answer. -/
theorem exec_agentStep {i : Instr} {s t : State} (ha : agentOf i ≠ none) (h : exec i s = .next t) :
    t = s ∨ AgentStep i s t := by
  obtain ⟨he, rfl⟩ | ⟨-, rfl⟩ := exec_next h
  · refine .inr (agentStep_of_enabled ha (fun f hi => ?_) he)
    subst hi
    exact exec_canRxDone_inInterface h
  · exact .inl rfl

/-- All a step can do: at some levels and with some script still to come, nothing or the step of an
agent; `USB_INIT` and reset only when the script's next event is that one. -/
theorem step_agentStep {s t : State} (h : step s = .next t) :
    ∃ inp rest i, (t = s.present inp rest ∨ AgentStep i (s.present inp rest) t)
      ∧ (∀ x ∈ t.script, x ∈ s.script)
      ∧ (i = .usbInit → ∃ x xs, s.script = x :: xs ∧ x.event = .init)
      ∧ (i = .resetEvent → ∃ x xs, s.script = x :: xs ∧ x.event = .reset) := by
  obtain ⟨-, he⟩ | ⟨inp, rest, i, hs, hd, he⟩ := step_next h <;> obtain ⟨-, hscript⟩ := exec_env he
  · have hm : agentOf (mainInstr s) = some .main := agentOf_mainInstr s
    refine ⟨⟨s.tickMs, s.canStatus, .sample⟩, s.script, mainInstr s,
      exec_agentStep (by simp [hm]) he, fun _ hx => hscript ▸ hx, fun hi => ?_, fun hi => ?_⟩
    · rw [hi] at hm; cases hm
    · rw [hi] at hm; cases hm
  · obtain ⟨henc, -⟩ := encode_of_decode hd
    refine ⟨inp, rest, i, exec_agentStep (agentOf_decodeEvent hd) he, fun x hx => ?_, ?_, ?_⟩
    · rw [hscript] at hx
      rw [hs]
      exact List.mem_cons_of_mem inp hx
    · rintro rfl
      exact ⟨inp, rest, hs, (Signal.event.inj henc).symm⟩
    · rintro rfl
      exact ⟨inp, rest, hs, (Signal.event.inj henc).symm⟩

/-- A property that levels and script do not touch, and that the steps of agents keep, is kept by every
step. -/
theorem step_keeps {P : State → Prop} (hp : ∀ s inp rest, P s → P (s.present inp rest))
    (ha : ∀ i s t, AgentStep i s t → P s → P t) {s t : State} (hs : P s) (h : step s = .next t) :
    P t := by
  obtain ⟨inp, rest, i, rfl | hi, -⟩ := step_agentStep h
  · exact hp s inp rest hs
  · exact ha i _ t hi (hp s inp rest hs)

end Sys2Proof.Machine
end


section
/-! PROOFS. The scheduler's, the data and the output invariant are kept by every step (10_state.md section 10).

The scheduler's invariant reads the scheduler's part alone, so `exec_sched` says all that can happen to
it. The other two split over the steps of agents. -/

namespace Sys2Proof.Machine

open Sys2Proof

/-! ### The scheduler's invariant -/

/-- A raise keeps the invariant: it sets a bit of the six and clears none (R140). -/
theorem schedInv_raise {s : State} (h : SchedInv s) (f : Flag) : SchedInv (s.raise f) where
  params_wf := h.params_wf
  reserved := reservedZero_raiseBit f h.reserved
  snap_sample := h.snap_sample
  snap_window := h.snap_window
  flag_window := fun hp => by
    simp [hasFlag_raiseBit h.params_wf, h.flag_window hp]

/-- A sample takes as snapshot the slot's bit, which it found set, or 0 (R143). -/
theorem schedInv_sample {s : State} (h : SchedInv s) : SchedInv s.sample := by
  obtain ⟨hset, e⟩ | ⟨-, e⟩ := sample_cases s <;> rw [e]
  · exact ⟨h.params_wf, h.reserved, by simp, fun _ => rfl, fun _ => hset⟩
  · exact ⟨h.params_wf, h.reserved, fun _ => rfl, by simp, by simp⟩

/-- A handler writes no flag, and the move to CLEAR stays inside the slot's window (R144). -/
theorem schedInv_handle {s : State} (h : SchedInv s) (hp : s.dph = .handle) : SchedInv s.handle := by
  have hw : s.dph ≠ .sample := by simp [hp]
  have hc : SchedInv { s with dph := .clear } :=
    ⟨h.params_wf, h.reserved, by simp, fun _ => h.snap_window hw, fun _ => h.flag_window hw⟩
  exact schedInv_of_view rfl (handle_sched s) hc

/-- A clear sets no bit and forgets the snapshot (R145). -/
theorem schedInv_clear {s : State} (h : SchedInv s) : SchedInv s.clear :=
  ⟨h.params_wf, reservedZero_clearBits s.dsnap h.reserved, fun _ => rfl, by simp, by simp⟩

/-- Reset clears the flags and the snapshot and keeps the parameters (R320). -/
theorem schedInv_reset {s : State} (h : SchedInv s) : SchedInv (update .resetEvent s) :=
  ⟨h.params_wf, BitVec.zero_and, fun _ => rfl, fun hp => absurd rfl hp, fun hp => absurd rfl hp⟩

/-- Every instruction keeps the scheduler's invariant. -/
theorem exec_keeps_schedInv {i : Instr} {s t : State} (hs : SchedInv s) (h : exec i s = .next t) :
    SchedInv t := by
  obtain e | ⟨f, -, e⟩ | ⟨-, -, rfl⟩ | ⟨-, hp, rfl⟩ | ⟨-, -, rfl⟩ | ⟨-, e⟩ := exec_sched h
  · exact schedInv_of_view rfl e hs
  · exact schedInv_of_view (State.raise_sched s f) e (schedInv_raise hs f)
  · exact schedInv_sample hs
  · exact schedInv_handle hs hp
  · exact schedInv_clear hs
  · exact schedInv_of_view (s := update .resetEvent s) rfl e (schedInv_reset hs)

theorem schedInv_present {s : State} (h : SchedInv s) (inp : Input) (rest : List Input) :
    SchedInv (s.present inp rest) :=
  schedInv_of_view rfl (State.present_sched s inp rest) h

/-- Every step keeps the scheduler's invariant. -/
theorem step_keeps_schedInv {s t : State} (hs : SchedInv s) (h : step s = .next t) : SchedInv t := by
  obtain ⟨-, he⟩ | ⟨inp, rest, i, -, -, he⟩ := step_next h
  · exact exec_keeps_schedInv hs he
  · exact exec_keeps_schedInv (schedInv_present hs inp rest) he

/-- Settles O39: a step runs one instruction, and every instruction keeps the invariant. -/
theorem stepKeepsTheSchedulerInvariant : Obligations.StepKeepsTheSchedulerInvariant :=
  fun _ _ hs h => step_keeps_schedInv hs h

/-! ### Frames and codes -/

/-- A record of R30, in the terms of its fields. -/
theorem valid_iff {f : Frame} :
    f.valid = true ↔ f.inInterface = true ∧ ∀ i (h : i < 8), f.dlc.toNat ≤ i → f.data[i] = 0#8 := by
  have byte (i : Fin 8) : (decide (i.val < f.dlc.toNat) || f.data[i.val] == 0#8) = true
      ↔ (f.dlc.toNat ≤ i.val → f.data[i.val] = 0#8) := by
    rw [Bool.or_eq_true, decide_eq_true_eq, beq_iff_eq, ← not_le, imp_iff_not_or]
  simp only [Frame.valid, Bool.and_eq_true, List.all_eq_true, List.mem_finRange, true_implies, byte]
  exact and_congr_right fun _ => ⟨fun h i hi => h ⟨i, hi⟩, fun h i => h i.val i.isLt⟩

/-- A slot with every field 0 holds a record of R30. -/
theorem valid_zero : Frame.zero.valid = true := by decide

/-- A received frame is stored as a record of R30 (R256). -/
theorem valid_storedFrame {f : Frame} (h : f.inInterface = true) : (storedFrame f).valid = true := by
  refine valid_iff.mpr ⟨h, fun i hi hle => ?_⟩
  exact (trim_getElem _ _ i hi).trans (if_neg (Nat.not_lt.mpr hle))

/-- A clamped data-length code fits its four bits (R114). -/
theorem clampDlc_toNat (b : Byte) : (BitVec.ofNat 4 (clampDlc b)).toNat = clampDlc b := by
  have h8 : clampDlc b ≤ 8 := Nat.min_le_right _ _
  rw [BitVec.toNat_ofNat]
  exact Nat.mod_eq_of_lt (by omega)

/-- An identifier is assembled into 29 bits, or 11 for a standard frame (R101). -/
theorem idOf_toNat (ext : Bool) (idw : Word32) :
    (idOf ext idw).toNat = if ext then idw.toNat % 2 ^ 29 else idw.toNat % 2 ^ 11 := by
  cases ext
  · have h11 (n : Nat) : n &&& 2047 = n % 2 ^ 11 := Nat.and_two_pow_sub_one_eq_mod n 11
    simp [idOf, h11]
  · have h29 (n : Nat) : n &&& 536870911 = n % 2 ^ 29 := Nat.and_two_pow_sub_one_eq_mod n 29
    simp [idOf, h29]

/-- An inbound data message is decoded to a record of R30 (R222). -/
theorem valid_frameOf (c : Params) (fl : Byte) (idw : Word32) (dlc : Byte) (data : Buf 8) :
    (frameOf c fl idw dlc data).valid = true := by
  have hdlc : (frameOf c fl idw dlc data).dlc.toNat = clampDlc dlc := clampDlc_toNat dlc
  refine valid_iff.mpr ⟨inInterface_iff.mpr ⟨?_, fun hext => ?_⟩, fun i hi hle => ?_⟩
  · rw [hdlc]
    exact Nat.min_le_right _ _
  · have hid : (frameOf c fl idw dlc data).id = idOf (frameOf c fl idw dlc data).ext idw := rfl
    rw [hid, hext, idOf_toNat]
    exact Nat.mod_lt _ (by decide)
  · rw [hdlc] at hle
    exact (trim_getElem _ _ i hi).trans (if_neg (Nat.not_lt.mpr hle))

/-- `ERR_MAP` answers a byte of the error-code table (R103, R233). -/
theorem errCode_mem (e : ErrRec) : errCode e ∈ wireCodes := by
  unfold errCode
  split_ifs
  · decide
  · decide
  · decide
  · cases e.rxc <;> decide

/-! ### Handlers, by what they emit -/

/-- The handler of a command slot transmits one answer, with status 0 or 255, and re-arms (R210 to
R214). -/
theorem handlerBody_command {k : Fin 6} {code : Byte} (h : codeOf (prio k) = some code) (s : State) :
    ∃ st, (st = 0x00#8 ∨ st = 0xFF#8) ∧ (handlerBody k s).cmdTx = answer s st
      ∧ (handlerBody k s).outCmd = s.outCmd ++ [answer s st] ∧ (handlerBody k s).cmdArmed = true
      ∧ (handlerBody k s).outData = s.outData := by
  have hst (ec : Byte) : respStatus ec = 0x00#8 ∨ respStatus ec = 0xFF#8 :=
    ite_eq_or_eq _ _ _
  match k with
  | 0 => rw [handlerBody_zero]; exact ⟨_, .inl rfl, rfl, rfl, rfl, rfl⟩
  | 1 => rw [handlerBody_one]; exact ⟨_, hst _, rfl, rfl, rfl, rfl⟩
  | 2 => rw [handlerBody_two]; exact ⟨_, hst _, rfl, rfl, rfl, rfl⟩
  | 3 | 4 | 5 => cases h

/-- The handler of a data slot leaves the command channel alone and emits at most one message (R225,
R228, R230). -/
theorem handlerBody_data {k : Fin 6} (h : codeOf (prio k) = none) (s : State) :
    (handlerBody k s).cmdTx = s.cmdTx ∧ (handlerBody k s).outCmd = s.outCmd
      ∧ (handlerBody k s).cmdArmed = s.cmdArmed
      ∧ ((handlerBody k s).outData = s.outData
        ∨ (handlerBody k s).outData = s.outData ++ [errMsg s.params s.lastErr s.tickMs]
        ∨ (handlerBody k s).outData = s.outData ++ [canMsg s.params s.canRxSlot s.tickMs]) := by
  match k with
  | 0 | 1 | 2 => cases h
  | 3 => exact ⟨rfl, rfl, rfl, .inl rfl⟩
  | 4 => rw [handlerBody_four]; exact ⟨rfl, rfl, rfl, .inr (.inl rfl)⟩
  | 5 => rw [handlerBody_five]; exact ⟨rfl, rfl, rfl, .inr (.inr rfl)⟩

/-- All `D_HANDLE` can write (R144). -/
theorem handle_eq (s : State) :
    ∃ cmdTx outCmd cmdArmed dataTx outData canCalls canOpenSt canTxBusy,
      s.handle = { s with
        dph := .clear, cmdTx := cmdTx, outCmd := outCmd, cmdArmed := cmdArmed, dataTx := dataTx,
        outData := outData, canCalls := canCalls, canOpenSt := canOpenSt, canTxBusy := canTxBusy } := by
  obtain ⟨_, _, _, _, _, _, _, _, e⟩ := handlerBody_eq s.dslot s
  exact ⟨_, _, _, _, _, _, _, _, congrArg (fun t : State => { t with dph := .clear }) e⟩

/-! ### The data invariant -/

/-- Every step of an agent keeps the data invariant. -/
theorem AgentStep.keeps_dataInv {i : Instr} {s t : State} (h : AgentStep i s t) (hs : DataInv s) :
    DataInv t := by
  obtain ⟨htx, hrx, hbrp, hcode, hhalt⟩ := hs
  cases h
  case accept range =>
    exact ⟨htx, hrx, range.elim (fun e => (congrArg BitVec.toNat e).trans_le hbrp) id, hcode, hhalt⟩
  case rejectCommand => exact ⟨htx, hrx, hbrp, hcode, fun _ => rfl⟩
  case acceptData => exact ⟨valid_frameOf _ _ _ _ _, hrx, hbrp, hcode, hhalt⟩
  case rejectData => exact ⟨htx, hrx, hbrp, hcode, fun _ => rfl⟩
  case receive inside => exact ⟨htx, valid_storedFrame inside, hbrp, hcode, hhalt⟩
  case canErr e => exact ⟨htx, hrx, hbrp, errCode_mem e, hhalt⟩
  case sample =>
    obtain ⟨_, _, _, e⟩ := sample_eq s
    rw [e]
    exact ⟨htx, hrx, hbrp, hcode, hhalt⟩
  case handle =>
    obtain ⟨_, _, _, _, _, _, _, _, e⟩ := handle_eq s
    rw [e]
    exact ⟨htx, hrx, hbrp, hcode, hhalt⟩
  case procException => exact ⟨htx, hrx, hbrp, hcode, fun _ => rfl⟩
  case reset => exact ⟨valid_zero, valid_zero, Nat.zero_le _, List.mem_cons_self, id⟩
  case init | deinit | canTxDone | clear => exact ⟨htx, hrx, hbrp, hcode, hhalt⟩

theorem dataInv_present {s : State} (inp : Input) (rest : List Input) (h : DataInv s) :
    DataInv (s.present inp rest) :=
  ⟨h.tx_valid, h.rx_valid, h.brp_range, h.err_code, h.halted_fault⟩

/-- Settles O40: levels and script are not read, and every step of an agent keeps the invariant. -/
theorem stepKeepsTheDataInvariant : Obligations.StepKeepsTheDataInvariant := fun _ _ hs h =>
  step_keeps (fun _ inp rest => dataInv_present inp rest) (fun _ _ _ => AgentStep.keeps_dataInv) hs h

/-! ### The output invariant -/

/-- The parameters are those of the build (R6): no step of an agent writes them. -/
theorem AgentStep.params_eq {i : Instr} {s t : State} (h : AgentStep i s t) : t.params = s.params := by
  cases h
  case sample =>
    obtain ⟨_, _, _, e⟩ := sample_eq s
    rw [e]
  case handle => exact congrArg SchedView.params (handle_sched s)
  all_goals rfl

/-- An answer has its markers, and the status byte it was built with (R96). -/
theorem goodResponse_answer (s : State) {st : Byte} (h : st = 0x00#8 ∨ st = 0xFF#8) :
    goodResponse s.params (answer s st) :=
  ⟨rfl, rfl, h⟩

/-- The output invariant is kept when the sequences grow by good messages. -/
theorem outputInv_append {s t : State} {cs : List (Buf 16)} {ds : List (Buf 21)} (hs : OutputInv s)
    (hp : t.params = s.params) (hc : t.outCmd = s.outCmd ++ cs) (hd : t.outData = s.outData ++ ds)
    (good_cs : ∀ m ∈ cs, goodResponse s.params m) (good_ds : ∀ m ∈ ds, goodDataMsg s.params m) :
    OutputInv t := by
  constructor <;> intro m hm
  · rw [hc, List.mem_append] at hm
    rw [hp]
    exact hm.elim (hs.cmd_good m) (good_cs m)
  · rw [hd, List.mem_append] at hm
    rw [hp]
    exact hm.elim (hs.data_good m) (good_ds m)

/-- What `D_HANDLE` emits is good, because the slots and `LAST_ERR` are (R228, R230). -/
theorem outputInv_handle {s : State} (hd : DataInv s) (hs : OutputInv s) : OutputInv s.handle := by
  have hp : s.handle.params = s.params := congrArg SchedView.params (handle_sched s)
  have herr : goodDataMsg s.params (errMsg s.params s.lastErr s.tickMs) :=
    .inr ⟨_, _, hd.err_code, rfl⟩
  have hcan : goodDataMsg s.params (canMsg s.params s.canRxSlot s.tickMs) :=
    .inl ⟨_, _, hd.rx_valid, rfl⟩
  cases hk : codeOf (prio s.dslot) with
  | some code =>
    obtain ⟨st, hst, -, hcmd, -, hdata⟩ := handlerBody_command hk s
    exact outputInv_append (ds := []) hs hp hcmd (hdata.trans (List.append_nil _).symm)
      (by simpa using goodResponse_answer s hst) (by simp)
  | none =>
    obtain ⟨-, hcmd, -, hdata⟩ := handlerBody_data hk s
    have hcmd' : s.handle.outCmd = s.outCmd ++ [] := hcmd.trans (List.append_nil _).symm
    obtain e | e | e := hdata
    · exact outputInv_append (ds := []) hs hp hcmd' (e.trans (List.append_nil _).symm) (by simp)
        (by simp)
    · exact outputInv_append hs hp hcmd' e (by simp) (by simpa using herr)
    · exact outputInv_append hs hp hcmd' e (by simp) (by simpa using hcan)

/-- Every step of an agent keeps the outputs good. -/
theorem AgentStep.keeps_outputInv {i : Instr} {s t : State} (h : AgentStep i s t) (hd : DataInv s)
    (hs : OutputInv s) : OutputInv t := by
  cases h
  case sample =>
    obtain ⟨_, _, _, e⟩ := sample_eq s
    rw [e]
    exact ⟨hs.cmd_good, hs.data_good⟩
  case handle => exact outputInv_handle hd hs
  case reset => exact ⟨fun _ h => absurd h List.not_mem_nil, fun _ h => absurd h List.not_mem_nil⟩
  all_goals exact ⟨hs.cmd_good, hs.data_good⟩

/-- Settles O41: the data invariant, which the slots' messages rest on, is kept along. -/
theorem stepKeepsTheOutputsGood : Obligations.StepKeepsTheOutputsGood := fun s _ hd hs h => by
  have both := step_keeps (P := fun u => DataInv u ∧ OutputInv u)
    (fun _ inp rest hu => ⟨dataInv_present inp rest hu.1, hu.2.cmd_good, hu.2.data_good⟩)
    (fun _ _ _ hi hu => ⟨hi.keeps_dataInv hu.1, hi.keeps_outputInv hu.1 hu.2⟩) ⟨hd, hs⟩ h
  exact both.2

end Sys2Proof.Machine
end


section
/-! PROOFS. The command channel's protocol (42_command_channel.md section 5).

Four lemmas say what a step of an agent can do to the protocol: when a command becomes owed, when the
channel becomes armed, when `CMD_RX` is written, when a response is sent. The protocol's invariant, the
dead channel and the shape of every response follow from them. -/

namespace Sys2Proof.Machine

open Sys2Proof

/-! ### Owed requests -/

/-- The code determines the command flag (R92). -/
theorem codeOf_injective {f g : Flag} {code : Byte} (hf : codeOf f = some code)
    (hg : codeOf g = some code) : f = g := by
  cases f <;> cases hf <;> cases g <;> first | rfl | cases hg

/-- A flag that is raised is the only one that can become owed (R140). -/
theorem pending_of_raise {s t : State} {f g : Flag} (hw : s.params.wf = true)
    (e : t.sched = (s.raise g).sched) (hp : pending t f) : f = g ∨ pending s f := by
  obtain ⟨hflag, hgap⟩ := (pending_of_sched e f).mp hp
  have hset : hasFlag s.params (raiseBit s.params g s.flags) f = true := hflag
  rw [hasFlag_raiseBit hw, Bool.or_eq_true, decide_eq_true_eq] at hset
  exact hset.symm.imp_right fun h => ⟨h, hgap⟩

/-- A sample makes nothing owed (R143). -/
theorem pending_of_sample {s : State} {f : Flag} (hph : s.dph = .sample) (hp : pending s.sample f) :
    pending s f := by
  refine ⟨?_, fun h => by simp [hph] at h⟩
  rw [← sample_hasFlag]
  exact hp.1

/-- After `D_HANDLE` the slot's own flag is answered; every other one is as it was (R144). -/
theorem pending_handle_iff {s : State} {f : Flag} (hph : s.dph = .handle) :
    pending s.handle f ↔ pending s f ∧ prio s.dslot ≠ f := by
  have hslot : s.handle.dslot = s.dslot := congrArg SchedView.dslot (handle_sched s)
  have hclear : s.handle.dph = .clear := rfl
  simp only [pending, handle_hasFlag, hslot, hclear, hph]
  simp

/-- After `D_CLEAR` the slot's own flag is gone; no other one becomes owed (R145). -/
theorem pending_of_clear {s : State} {f : Flag} (hs : SchedInv s) (hph : s.dph = .clear)
    (hp : pending s.clear f) : pending s f := by
  have hsnap := hs.snap_window (by simp [hph])
  have hflag : hasFlag s.params (clearBits s.dsnap s.flags) f = true := hp.1
  rw [hsnap, hasFlag_clearBits hs.params_wf, Bool.and_eq_true] at hflag
  obtain ⟨hset, hne⟩ := hflag
  refine ⟨hset, fun hgap => ?_⟩
  simp [hgap.2] at hne

/-- The request of the slot that stands before its handler is owed (R149). -/
theorem pending_of_handle {s : State} (hs : SchedInv s) (hph : s.dph = .handle) :
    pending s (prio s.dslot) :=
  ⟨hs.flag_window (by simp [hph]), fun h => by simp [hph] at h⟩

theorem not_pending_of_no_flag {s : State} {f : Flag} (h : s.flags = 0) : ¬pending s f := by
  intro hp
  have hflag := hp.1
  rw [h] at hflag
  simp [hasFlag] at hflag

/-- Accepting a command makes at most its own flag owed (R196). -/
theorem pending_of_accept {s : State} {f g : Flag} {msg : Buf 16} {p : Buf 10} {d : Descriptor}
    (hw : s.params.wf = true) (hp : pending (s.accept g msg p d) f) : f = g ∨ pending s f :=
  pending_of_raise hw (e := rfl) hp

/-! ### What a step can do to the protocol -/

/-- A command is owed that was owed before, or was taken off an armed channel just now, and is the one
in `CMD_RX` (R190, R194). -/
theorem AgentStep.pending_command {i : Instr} {s t : State} {f : Flag} {code : Byte}
    (h : AgentStep i s t) (hs : SchedInv s) (hf : codeOf f = some code) (hp : pending t f) :
    pending s f ∨ (s.cmdArmed = true ∧ t.cmdArmed = false ∧ t.cmdRx[2] = code) := by
  have other {g : Flag} (hg : codeOf g = none) (e : t.sched = (s.raise g).sched) :
      pending s f := by
    refine (pending_of_raise hs.params_wf e hp).resolve_left fun hfg => ?_
    rw [← hfg, hf] at hg
    cases hg
  cases h with
  | accept _ _ ha hg hmsg _ =>
    obtain rfl | h := pending_of_accept hs.params_wf hp
    · rw [hf] at hg
      cases hg
      exact .inr ⟨ha, rfl, hmsg⟩
    · exact .inl h
  | acceptData => exact .inl (other (g := .transmit) rfl rfl)
  | receive => exact .inl (other (g := .rxrdy) rfl rfl)
  | canErr => exact .inl (other (g := .error) rfl rfl)
  | sample hph => exact .inl (pending_of_sample hph hp)
  | handle hph => exact .inl ((pending_handle_iff hph).mp hp).1
  | clear hph => exact .inl (pending_of_clear hs hph hp)
  | reset => exact absurd hp (not_pending_of_no_flag rfl)
  | rejectCommand | rejectData | init | deinit | canTxDone | procException => exact .inl hp

/-- The command channel is armed because it was, or by `USB_INIT`, or by the handler of a command slot
(R211, R259). -/
theorem AgentStep.cmdArmed_cases {i : Instr} {s t : State} (h : AgentStep i s t)
    (ha : t.cmdArmed = true) : s.cmdArmed = true ∨ i = .usbInit
      ∨ (t = s.handle ∧ s.dph = .handle ∧ ∃ code, codeOf (prio s.dslot) = some code) := by
  cases h
  case init => exact .inr (.inl rfl)
  case handle hph =>
    cases hk : codeOf (prio s.dslot) with
    | some code => exact .inr (.inr ⟨rfl, hph, code, rfl⟩)
    | none =>
      obtain ⟨-, -, harm, -⟩ := handlerBody_data hk s
      exact .inl (harm.symm.trans ha)
  case sample =>
    obtain ⟨_, _, _, e⟩ := sample_eq s
    rw [e] at ha
    exact .inl ha
  case accept | rejectCommand | deinit | reset => cases ha
  case acceptData | rejectData | receive | canErr | canTxDone | clear | procException => exact .inl ha

/-- `CMD_RX` is written by a delivery on an armed channel, which disarms it, and by reset (R190). -/
theorem AgentStep.cmdRx_cases {i : Instr} {s t : State} (h : AgentStep i s t) :
    t.cmdRx = s.cmdRx ∨ t = update .resetEvent s ∨ (s.cmdArmed = true ∧ t.cmdArmed = false) := by
  cases h
  case accept | rejectCommand => exact .inr (.inr ⟨by assumption, rfl⟩)
  case sample =>
    obtain ⟨_, _, _, e⟩ := sample_eq s
    rw [e]
    exact .inl rfl
  case handle =>
    obtain ⟨_, _, _, _, _, _, _, _, e⟩ := handle_eq s
    exact .inl (by rw [e])
  case reset => exact .inr (.inl rfl)
  all_goals exact .inl rfl

/-- `OUT_CMD` grows by the answer of the handler of a command slot; nothing else but reset changes it
(R210, R254). -/
theorem AgentStep.outCmd_cases {i : Instr} {s t : State} (h : AgentStep i s t) :
    t.outCmd = s.outCmd ∨ (i = .resetEvent ∧ t.outCmd = [])
      ∨ (s.dph = .handle ∧ ∃ code st, codeOf (prio s.dslot) = some code
        ∧ t.outCmd = s.outCmd ++ [answer s st]) := by
  cases h
  case sample =>
    obtain ⟨_, _, _, e⟩ := sample_eq s
    rw [e]
    exact .inl rfl
  case handle hph =>
    cases hk : codeOf (prio s.dslot) with
    | some code =>
      obtain ⟨st, -, -, hcmd, -⟩ := handlerBody_command hk s
      exact .inr (.inr ⟨hph, code, st, rfl, hcmd⟩)
    | none =>
      obtain ⟨-, hcmd, -⟩ := handlerBody_data hk s
      exact .inl hcmd
  case reset => exact .inr (.inl ⟨rfl, rfl⟩)
  all_goals exact .inl rfl

/-! ### The protocol's invariant -/

/-- The slot that stands before a command's handler answers the command in `CMD_RX` (R215). -/
theorem cmdRx_of_handle {s : State} {code : Byte} (hs : SchedInv s) (hc : CommandInv s)
    (hph : s.dph = .handle) (hk : codeOf (prio s.dslot) = some code) : s.cmdRx[2] = code :=
  hc.owed_code _ code hk (pending_of_handle hs hph)

/-- Two commands are never owed at once (R190): both would be the one in `CMD_RX`. -/
theorem pending_unique {s : State} {f g : Flag} {x y : Byte} (hc : CommandInv s)
    (hf : codeOf f = some x) (hg : codeOf g = some y) (hpf : pending s f) (hpg : pending s g) :
    f = g := by
  have hxy : x = y := (hc.owed_code f x hf hpf).symm.trans (hc.owed_code g y hg hpg)
  exact codeOf_injective hf (hxy ▸ hg)

/-- Every step of an agent but `USB_INIT` keeps the protocol. -/
theorem AgentStep.keeps_commandInv {i : Instr} {s t : State} (h : AgentStep i s t)
    (hi : i ≠ .usbInit) (hs : SchedInv s) (hc : CommandInv s) : CommandInv t where
  armed_idle := fun ha f code hf hp => by
    obtain hps | ⟨-, hna, -⟩ := h.pending_command hs hf hp
    · obtain hsa | rfl | ⟨rfl, hph, code', hk⟩ := h.cmdArmed_cases ha
      · exact hc.armed_idle hsa f code hf hps
      · exact hi rfl
      · have hne := ((pending_handle_iff hph).mp hp).2
        exact hne (pending_unique hc hk hf (pending_of_handle hs hph) hps)
    · simp [ha] at hna
  owed_code := fun f code hf hp => by
    obtain hps | ⟨-, -, hcode⟩ := h.pending_command hs hf hp
    · obtain e | rfl | ⟨hsa, -⟩ := h.cmdRx_cases
      · rw [e]
        exact hc.owed_code f code hf hps
      · exact absurd hp (not_pending_of_no_flag rfl)
      · exact absurd hps (hc.armed_idle hsa f code hf)
    · exact hcode

theorem commandInv_present {s : State} (inp : Input) (rest : List Input) (h : CommandInv s) :
    CommandInv (s.present inp rest) :=
  ⟨h.armed_idle, h.owed_code⟩

/-- Settles O42: the step is one of an agent, and `USB_INIT` only when that is the script's event. -/
theorem stepKeepsTheCommandProtocol : Obligations.StepKeepsTheCommandProtocol := by
  intro s t hs hc hno h
  obtain ⟨inp, rest, i, rfl | hi, -, hinit, -⟩ := step_agentStep h
  · exact commandInv_present inp rest hc
  · refine hi.keeps_commandInv (fun e => ?_) (schedInv_present hs inp rest)
      (commandInv_present inp rest hc)
    obtain ⟨x, xs, hx, hev⟩ := hinit e
    exact hno x xs hx hev

/-- Settles O38: at reset no flag is set, the slots are zero and nothing has been emitted. -/
theorem resetMeetsTheInvariants : Obligations.ResetMeetsTheInvariants := by
  have idle (f : Flag) : ¬pending State.reset f := not_pending_of_no_flag rfl
  exact ⟨⟨by decide, rfl, fun _ => rfl, fun h => absurd rfl h, fun h => absurd rfl h⟩,
    ⟨valid_zero, valid_zero, Nat.zero_le _, List.mem_cons_self, fun h => absurd h (by decide)⟩,
    ⟨fun _ h => absurd h List.not_mem_nil, fun _ h => absurd h List.not_mem_nil⟩,
    ⟨fun _ f _ _ => idle f, fun f _ _ hp => absurd hp (idle f)⟩⟩

/-! ### Responses -/

/-- Settles O51: what appends is the handler of a command slot, whose answer echoes `CMD_RX`; the
protocol says that this is the command of the slot. -/
theorem everyResponseAnswersTheHeldCommand : Obligations.EveryResponseAnswersTheHeldCommand := by
  intro s t hs hc h
  obtain ⟨inp, rest, i, rfl | hi, -⟩ := step_agentStep h
  · exact .inl rfl
  · obtain e | ⟨-, e⟩ | ⟨hph, code, st, hk, e⟩ := hi.outCmd_cases
    · exact .inl e
    · exact .inr (.inl e)
    · have hcode : s.cmdRx[2] = code := cmdRx_of_handle hs hc hph hk
      exact .inr (.inr ⟨answer (s.present inp rest) st, e, hph, hcode ▸ hk, rfl, rfl, rfl⟩)

/-! ### The dead channel -/

/-- A dead command channel is dead after every step of an agent but `USB_INIT`, and nothing but reset
changes `OUT_CMD` (R334). -/
theorem AgentStep.keeps_cmdDead {i : Instr} {s t : State} (h : AgentStep i s t) (hi : i ≠ .usbInit)
    (hs : SchedInv s) (hd : cmdDead s) :
    cmdDead t ∧ (t.outCmd = s.outCmd ∨ i = .resetEvent) := by
  obtain ⟨hna, hidle⟩ := hd
  have no_command_slot {code : Byte} (hph : s.dph = .handle) :
      codeOf (prio s.dslot) ≠ some code := fun hk =>
    hidle _ code hk (pending_of_handle hs hph)
  refine ⟨⟨Bool.eq_false_iff.mpr fun ha => ?_, fun f code hf hp => ?_⟩, ?_⟩
  · obtain hsa | rfl | ⟨-, hph, code, hk⟩ := h.cmdArmed_cases ha
    · simp [hna] at hsa
    · exact hi rfl
    · exact no_command_slot hph hk
  · obtain hps | ⟨hsa, -⟩ := h.pending_command hs hf hp
    · exact hidle f code hf hps
    · simp [hna] at hsa
  · obtain e | ⟨e, -⟩ | ⟨hph, code, st, hk, -⟩ := h.outCmd_cases
    · exact .inl e
    · exact .inr e
    · exact absurd hk (no_command_slot hph)

/-- One step of a dead channel, with neither `USB_INIT` nor reset to come. -/
theorem step_keeps_cmdDead {s t : State} (hs : SchedInv s) (hd : cmdDead s)
    (hno : ∀ inp ∈ s.script, inp.event ≠ .init ∧ inp.event ≠ .reset) (h : step s = .next t) :
    (cmdDead t ∧ t.outCmd = s.outCmd) ∧ ∀ inp ∈ t.script, inp ∈ s.script := by
  obtain ⟨inp, rest, i, hi, hscript, hinit, hreset⟩ := step_agentStep h
  refine ⟨?_, hscript⟩
  obtain rfl | hi := hi
  · exact ⟨hd, rfl⟩
  · have no_init : i ≠ .usbInit := fun e => by
      obtain ⟨x, xs, hx, hev⟩ := hinit e
      exact (hno x (by simp [hx])).1 hev
    have no_reset : i ≠ .resetEvent := fun e => by
      obtain ⟨x, xs, hx, hev⟩ := hreset e
      exact (hno x (by simp [hx])).2 hev
    obtain ⟨hdead, hout⟩ := hi.keeps_cmdDead no_init (schedInv_present hs inp rest) hd
    exact ⟨hdead, hout.resolve_right no_reset⟩

/-- A run of at least one step that has a next state is a step and a run from there. -/
theorem run_succ_next {n : Nat} {s t : State} (h : Sys2Proof.core.run (n + 1) s = .next t) :
    ∃ u, step s = .next u ∧ Sys2Proof.core.run n u = .next t := by
  rw [run_succ] at h
  cases hu : step s with
  | next u => exact ⟨u, rfl, by rw [hu] at h; exact h⟩
  | fault r => rw [hu] at h; cases h
  | refused r => rw [hu] at h; cases h

/-- Settles O47, by induction on the number of steps. -/
theorem deadCommandChannelStaysDead : Obligations.DeadCommandChannelStaysDead := by
  intro n
  induction n with
  | zero =>
    intro s t _ hd _ h
    obtain rfl : s = t := Host.Outcome.next.inj ((run_zero s).symm.trans h)
    exact ⟨hd, rfl⟩
  | succ n ih =>
    intro s t hs hd hno h
    obtain ⟨u, hstep, hrun⟩ := run_succ_next h
    obtain ⟨⟨hdu, hout⟩, hscript⟩ := step_keeps_cmdDead hs hd hno hstep
    obtain ⟨hdt, e⟩ := ih u t (step_keeps_schedInv hs hstep) hdu
      (fun inp hi => hno inp (hscript inp hi)) hrun
    exact ⟨hdt, e.trans hout⟩

end Sys2Proof.Machine
end


section
/-! PROOFS. Rules of the whole machine: who clears a flag and what the same-flag gap loses
(40_scheduler.md section 3), who writes each buffer (10_state.md section 8), what backpressure protects
(70_reset_and_hazards.md section 3), and that outputs only grow. -/

namespace Sys2Proof.Machine

open Sys2Proof

/-! ### Lost and kept flags -/

/-- `D_CLEAR` clears the flag of its own slot and no other (R145). -/
theorem clear_hasFlag {s : State} (hs : SchedInv s) (hph : s.dph = .clear) (f : Flag) :
    hasFlag s.clear.params s.clear.flags f
      = (hasFlag s.params s.flags f && !decide (f = prio s.dslot)) := by
  rw [← hasFlag_clearBits hs.params_wf, ← hs.snap_window (by simp [hph])]
  rfl

/-- Settles O44: only `D_CLEAR` and reset clear a flag at all, and `D_CLEAR`, enabled in its phase
alone, clears the snapshot, which is the slot's bit. -/
theorem onlyItsOwnClearClearsAFlag : Obligations.OnlyItsOwnClearClearsAFlag := by
  intro s t i f hs h hset hcleared
  obtain rfl | rfl := dClear_or_reset_of_exec_clears hs.params_wf h hset hcleared
  · obtain ⟨he, rfl⟩ | ⟨-, rfl⟩ := exec_next h
    · have hph : s.dph = .clear := by
        simp only [enabled, Bool.and_eq_true, decide_eq_true_eq] at he
        exact he.2
      have hown := (clear_hasFlag hs hph f).symm.trans hcleared
      rw [hset, Bool.true_and, Bool.not_eq_false', decide_eq_true_eq] at hown
      exact .inr ⟨rfl, hph, hown.symm⟩
    · simp [hset] at hcleared
  · exact .inl rfl

/-- A command with a flag, in a core that is not halted and armed, is accepted (R194 to R197). -/
theorem exec_cmdRow_accept {s : State} {f : Flag} {code : Byte} (hh : s.halted = false)
    (ha : s.cmdArmed = true) (hf : codeOf f = some code) (a : CmdArgs) :
    ∃ p d, (d.brp = s.btBrp ∨ d.brp.toNat ≤ 98302)
      ∧ exec (cmdRow code a) s = .next (s.accept f (cmdMsg s.params code a) p d) := by
  rw [exec_cmdRow, State.takeCommand, ifEnabled_enabled hh ha]
  cases f <;> cases hf
  case version =>
    refine ⟨versionPayload, s.descriptor, .inl rfl, ?_⟩
    rw [if_pos rfl, acceptVersion_eq]
    rfl
  case open_ =>
    refine ⟨zeros 10, (s.btDecode a.payload).descriptor, .inr (brpOf_le _), ?_⟩
    rw [if_neg (by decide), if_pos rfl, acceptOpen_eq]
    rfl
  case close =>
    refine ⟨zeros 10, s.descriptor, .inl rfl, ?_⟩
    rw [if_neg (by decide), if_neg (by decide), if_pos rfl, acceptClose_eq]
    rfl

/-- In the gap of its slot a flag is set already, so that a raise leaves no trace (R147). -/
theorem raise_in_gap {s : State} (hs : SchedInv s) (hph : s.dph = .clear) :
    s.raise (prio s.dslot) = s :=
  raise_of_hasFlag (hs.flag_window (by simp [hph]))

/-- A command accepted in the gap of its own slot leaves a dead channel after the slot's `D_CLEAR`
(R147, R330). -/
theorem cmdDead_of_accept_in_gap {s : State} {f : Flag} (hs : SchedInv s) (hc : CommandInv s)
    (ha : s.cmdArmed = true) (hph : s.dph = .clear) (hslot : prio s.dslot = f) (msg : Buf 16)
    (p : Buf 10) (d : Descriptor) : cmdDead (s.accept f msg p d).clear := by
  have hs' : SchedInv (s.accept f msg p d) :=
    schedInv_of_view (s := s.raise f) rfl rfl (schedInv_raise hs f)
  refine ⟨rfl, fun g code hg hp => ?_⟩
  have hpa : pending (s.accept f msg p d) g := pending_of_clear hs' hph hp
  obtain rfl | hps := pending_of_accept hs.params_wf hpa
  · exact hpa.2 ⟨hph, hslot⟩
  · exact hc.armed_idle ha g code hg hps

/-- Settles O46: the flag is set already, so the raise is lost with the clear; the accepted command has
disarmed the channel and nothing is owed. -/
theorem sameFlagGapLosesTheRequest : Obligations.SameFlagGapLosesTheRequest := by
  refine ⟨?_, fun s f code a hs hc hh ha hph hslot hf => ?_⟩
  · rintro s t f hs hh hph rfl h
    obtain rfl : s = t := by
      rw [exec_raise hh, raise_in_gap hs hph] at h
      exact Host.Outcome.next.inj h
    refine ⟨rfl, s.clear, exec_dClear hh hph, ?_⟩
    rw [clear_hasFlag hs hph, decide_eq_true rfl, Bool.not_true, Bool.and_false]
  · obtain ⟨p, d, -, hx⟩ := exec_cmdRow_accept hh ha hf a
    exact ⟨_, _, hx, exec_dClear hh hph, cmdDead_of_accept_in_gap hs hc ha hph hslot _ p d, rfl, rfl⟩

/-! ### Writers -/

/-- Preparing a payload keeps the bytes around it (R193). -/
theorem withPayload_getElem (tx : Buf 16) (p : Buf 10) (k : Fin 16) (h : k.val ≤ 4 ∨ k.val = 15) :
    (withPayload tx p)[k.val] = tx[k.val] := by
  obtain ⟨k, hk⟩ := k
  interval_cases k <;> first | rfl | (simp at h)

/-- An answer carries the payload that was prepared (R210). -/
theorem answer_getElem (s : State) (st : Byte) (k : Fin 16) (h5 : 5 ≤ k.val) (h14 : k.val ≤ 14) :
    (answer s st)[k.val] = s.cmdTx[k.val] := by
  obtain ⟨k, hk⟩ := k
  change 5 ≤ k at h5
  change k ≤ 14 at h14
  interval_cases k <;> rfl

/-- A handler keeps the payload bytes of `CMD_TX`: it leaves the buffer alone or puts an answer there. -/
theorem handlerBody_payload (j : Fin 6) (s : State) (k : Fin 16) (h5 : 5 ≤ k.val) (h14 : k.val ≤ 14) :
    (handlerBody j s).cmdTx[k.val] = s.cmdTx[k.val] := by
  cases hj : codeOf (prio j) with
  | some code =>
    obtain ⟨st, -, e, -⟩ := handlerBody_command hj s
    simpa only [e] using answer_getElem s st k h5 h14
  | none =>
    obtain ⟨e, -⟩ := handlerBody_data hj s
    simp only [e]

/-- What a step of the USB interrupt context leaves alone. -/
theorem AgentStep.frame_uisr {i : Instr} {s t : State} (h : AgentStep i s t)
    (ha : agentOf i = some .uisr) :
    (∀ k : Fin 16, k.val ≤ 4 ∨ k.val = 15 → t.cmdTx[k.val] = s.cmdTx[k.val])
      ∧ t.dataTx = s.dataTx ∧ t.canRxSlot = s.canRxSlot ∧ t.lastErr = s.lastErr
      ∧ t.dslot = s.dslot ∧ t.dph = s.dph ∧ t.dsnap.toNat = s.dsnap.toNat := by
  cases h with
  | accept p =>
    exact ⟨fun k hk => withPayload_getElem s.cmdTx p k hk, rfl, rfl, rfl, rfl, rfl, rfl⟩
  | rejectCommand | acceptData | rejectData | init | deinit =>
    exact ⟨fun _ _ => rfl, rfl, rfl, rfl, rfl, rfl, rfl⟩
  | receive | canErr | canTxDone | sample | handle | clear | procException | reset => cases ha

/-- What a step of the CAN interrupt context leaves alone. -/
theorem AgentStep.frame_cisr {i : Instr} {s t : State} (h : AgentStep i s t)
    (ha : agentOf i = some .cisr) :
    t.cmdRx = s.cmdRx ∧ t.cmdTx = s.cmdTx ∧ t.dataRx = s.dataRx ∧ t.dataTx = s.dataTx
      ∧ t.canTxSlot = s.canTxSlot
      ∧ (t.btSjw, t.btTs1, t.btTs2, t.btBrp) = (s.btSjw, s.btTs1, s.btTs2, s.btBrp)
      ∧ (t.cmS, t.cmL, t.cmO) = (s.cmS, s.cmL, s.cmO)
      ∧ t.dslot = s.dslot ∧ t.dph = s.dph ∧ t.dsnap.toNat = s.dsnap.toNat := by
  cases h with
  | receive | canErr | canTxDone => exact ⟨rfl, rfl, rfl, rfl, rfl, rfl, rfl, rfl, rfl, rfl⟩
  | accept _ hi | rejectCommand _ _ hi | acceptData _ _ _ _ _ hi | rejectData _ _ hi =>
    rw [hi] at ha
    cases ha
  | init | deinit | sample | handle | clear | procException | reset => cases ha

/-- What a step of `MAIN` leaves alone. -/
theorem AgentStep.frame_main {i : Instr} {s t : State} (h : AgentStep i s t)
    (ha : agentOf i = some .main) :
    t.cmdRx = s.cmdRx ∧ (∀ k : Fin 16, 5 ≤ k.val → k.val ≤ 14 → t.cmdTx[k.val] = s.cmdTx[k.val])
      ∧ t.dataRx = s.dataRx ∧ t.canTxSlot = s.canTxSlot ∧ t.canRxSlot = s.canRxSlot
      ∧ t.lastErr = s.lastErr
      ∧ (t.btSjw, t.btTs1, t.btTs2, t.btBrp) = (s.btSjw, s.btTs1, s.btTs2, s.btBrp)
      ∧ (t.cmS, t.cmL, t.cmO) = (s.cmS, s.cmL, s.cmO) := by
  cases h with
  | sample =>
    obtain ⟨_, _, _, e⟩ := sample_eq s
    rw [e]
    exact ⟨rfl, fun _ _ _ => rfl, rfl, rfl, rfl, rfl, rfl, rfl⟩
  | handle =>
    have htx := handlerBody_payload s.dslot s
    obtain ⟨_, _, _, _, _, _, _, _, e⟩ := handle_eq s
    refine ⟨?_, htx, ?_⟩ <;> rw [e]
    exact ⟨rfl, rfl, rfl, rfl, rfl, rfl⟩
  | clear => exact ⟨rfl, fun _ _ _ => rfl, rfl, rfl, rfl, rfl, rfl, rfl⟩
  | accept _ hi | rejectCommand _ _ hi | acceptData _ _ _ _ _ hi | rejectData _ _ hi =>
    rw [hi] at ha
    cases ha
  | init | deinit | receive | canErr | canTxDone | procException | reset => cases ha

/-- Settles O53: a step of an agent does nothing or is one of those the three frames split over. -/
theorem eachBufferHasOneWriter : Obligations.EachBufferHasOneWriter := by
  intro s t i h
  have agent {g : Agent} (ha : agentOf i = some g) : t = s ∨ AgentStep i s t :=
    exec_agentStep (by simp [ha]) h
  refine ⟨fun ha => ?_, fun ha => ?_, fun ha => ?_⟩
  · obtain rfl | hi := agent ha
    · exact ⟨fun _ _ => rfl, rfl, rfl, rfl, rfl, rfl, rfl⟩
    · exact hi.frame_uisr ha
  · obtain rfl | hi := agent ha
    · exact ⟨rfl, rfl, rfl, rfl, rfl, rfl, rfl, rfl, rfl, rfl⟩
    · exact hi.frame_cisr ha
  · obtain rfl | hi := agent ha
    · exact ⟨rfl, fun _ _ _ => rfl, rfl, rfl, rfl, rfl, rfl, rfl⟩
    · exact hi.frame_main ha

/-! ### Backpressure -/

/-- What a step of an agent but reset leaves alone while a channel is not armed (R336). -/
theorem AgentStep.frame_disarmed {i : Instr} {s t : State} (h : AgentStep i s t)
    (hr : i ≠ .resetEvent) :
    (s.cmdArmed = false →
      t.cmdRx = s.cmdRx ∧ (∀ k : Fin 16, 5 ≤ k.val → k.val ≤ 14 → t.cmdTx[k.val] = s.cmdTx[k.val])
        ∧ (t.btSjw, t.btTs1, t.btTs2, t.btBrp) = (s.btSjw, s.btTs1, s.btTs2, s.btBrp)
        ∧ (t.cmS, t.cmL, t.cmO) = (s.cmS, s.cmL, s.cmO))
    ∧ (s.dataArmed = false → t.canTxSlot = s.canTxSlot) := by
  have main (hm : agentOf i = some .main) := h.frame_main hm
  cases h with
  | accept _ _ ha | rejectCommand _ _ _ ha => exact ⟨fun hna => by simp [hna] at ha, fun _ => rfl⟩
  | acceptData _ _ _ _ _ _ ha | rejectData _ _ _ ha =>
    exact ⟨fun _ => ⟨rfl, fun _ _ _ => rfl, rfl, rfl⟩, fun hna => by simp [hna] at ha⟩
  | sample | handle | clear =>
    obtain ⟨hrx, htx, -, hslot, -, -, hbt, hcm⟩ := main rfl
    exact ⟨fun _ => ⟨hrx, htx, hbt, hcm⟩, fun _ => hslot⟩
  | reset => exact absurd rfl hr
  | init | deinit | receive | canErr | canTxDone | procException =>
    exact ⟨fun _ => ⟨rfl, fun _ _ _ => rfl, rfl, rfl⟩, fun _ => rfl⟩

/-- A step whose script does not begin with reset does nothing or is the step of an agent, not reset. -/
theorem step_agentStep_of_not_reset {s t : State} (h : step s = .next t)
    (hno : ∀ inp rest, s.script = inp :: rest → inp.event ≠ .reset) :
    ∃ inp rest i, (t = s.present inp rest ∨ AgentStep i (s.present inp rest) t)
      ∧ i ≠ .resetEvent := by
  obtain ⟨inp, rest, i, hi, -, -, hreset⟩ := step_agentStep h
  refine ⟨inp, rest, i, hi, fun e => ?_⟩
  obtain ⟨x, xs, hx, hev⟩ := hreset e
  exact hno x xs hx hev

/-- Settles O54: levels and script are no buffers, and the deliveries that write need an armed channel. -/
theorem disarmedChannelsKeepTheirBuffers : Obligations.DisarmedChannelsKeepTheirBuffers := by
  intro s t h hno
  obtain ⟨inp, rest, i, rfl | hi, hr⟩ := step_agentStep_of_not_reset h hno
  · exact ⟨fun _ => ⟨rfl, fun _ _ _ => rfl, rfl, rfl⟩, fun _ => rfl⟩
  · exact hi.frame_disarmed hr

/-! ### Outputs -/

/-- A handler only appends to the three output sequences (R40). -/
theorem handlerBody_outputs_grow (k : Fin 6) (s : State) :
    s.outCmd <+: (handlerBody k s).outCmd ∧ s.outData <+: (handlerBody k s).outData
      ∧ s.canCalls <+: (handlerBody k s).canCalls := by
  have hcalls : s.canCalls <+: (handlerBody k s).canCalls := ⟨_, (handlerBody_canCalls k s).symm⟩
  cases hk : codeOf (prio k) with
  | some code =>
    obtain ⟨st, -, -, hcmd, -, hdata⟩ := handlerBody_command hk s
    exact ⟨⟨_, hcmd.symm⟩, hdata ▸ List.prefix_rfl, hcalls⟩
  | none =>
    obtain ⟨-, hcmd, -, hdata⟩ := handlerBody_data hk s
    refine ⟨hcmd ▸ List.prefix_rfl, ?_, hcalls⟩
    obtain e | e | e := hdata
    · exact e ▸ List.prefix_rfl
    · exact ⟨_, e.symm⟩
    · exact ⟨_, e.symm⟩

/-- Every step of an agent but reset only appends (R40). -/
theorem AgentStep.outputs_grow {i : Instr} {s t : State} (h : AgentStep i s t)
    (hr : i ≠ .resetEvent) :
    s.outCmd <+: t.outCmd ∧ s.outData <+: t.outData ∧ s.canCalls <+: t.canCalls := by
  have same : s.outCmd <+: s.outCmd ∧ s.outData <+: s.outData ∧ s.canCalls <+: s.canCalls :=
    ⟨List.prefix_rfl, List.prefix_rfl, List.prefix_rfl⟩
  cases h with
  | receive => exact ⟨List.prefix_rfl, List.prefix_rfl, List.prefix_append _ _⟩
  | sample =>
    obtain ⟨_, _, _, e⟩ := sample_eq s
    rw [e]
    exact same
  | handle => exact handlerBody_outputs_grow s.dslot s
  | reset => exact absurd rfl hr
  | accept | rejectCommand | acceptData | rejectData | init | deinit | canErr | canTxDone | clear
    | procException => exact same

/-- Settles O55: levels and script are no outputs, and the steps of agents append. -/
theorem outputsOnlyGrow : Obligations.OutputsOnlyGrow := by
  intro s t h hno
  obtain ⟨inp, rest, i, rfl | hi, hr⟩ := step_agentStep_of_not_reset h hno
  · exact ⟨List.prefix_rfl, List.prefix_rfl, List.prefix_rfl⟩
  · exact hi.outputs_grow hr

end Sys2Proof.Machine
end


section
/-! PROOFS. The drain: its phases as instructions, a whole slot, a whole pass (40_scheduler.md sections 2
and 3), and what a pass makes of several CAN errors (43_data_channel.md section 3).

An undisturbed slot is `serviceSlot` followed by the move to the next slot (`runSlot_eq`), because no
handler reads the drain's position. A pass is six of these. -/

namespace Sys2Proof.Machine

open Sys2Proof

/-! ### The phases -/

/-- `D_SAMPLE` in its phase, in a core that is not halted, makes its update (R143). -/
theorem exec_dSample {s : State} (hh : s.halted = false) (hp : s.dph = .sample) :
    exec .dSample s = .next s.sample :=
  ifEnabled_enabled hh (decide_eq_true hp)

/-- `D_HANDLE` in its phase, in a core that is not halted, makes its update (R144). -/
theorem exec_dHandle {s : State} (hh : s.halted = false) (hp : s.dph = .handle) :
    exec .dHandle s = .next s.handle :=
  ifEnabled_enabled hh (decide_eq_true hp)

/-- Settles O2: the two cases of `State.sample` are those of the flag's bit. -/
theorem sampleSnapshotsTheSlotsFlag : Obligations.SampleSnapshotsTheSlotsFlag := by
  intro s hh hp
  rw [exec_dSample hh hp]
  obtain ⟨hset, e⟩ | ⟨hunset, e⟩ := sample_cases s
  · have hbit : s.flags.getLsbD (s.params.flagIx (prio s.dslot)).val = true := hset
    rw [e, if_pos hbit]
    rfl
  · have hbit : s.flags.getLsbD (s.params.flagIx (prio s.dslot)).val = false := hunset
    rw [e, if_neg (Bool.eq_false_iff.mp hbit)]
    rfl

/-- The row of slot `k`'s handler, executed on its own, is the handler (R212 to R230). -/
theorem exec_slotRow {s : State} (hh : s.halted = false) (k : Fin 6) :
    exec
        (match k with
          | 0 => Instr.hVersion
          | 1 => Instr.hOpen
          | 2 => Instr.hClose
          | 3 => Instr.hTransmit
          | 4 => Instr.hError
          | 5 => Instr.hRxrdy) s = .next (handlerBody k s) := by
  match k with
  | 0 | 1 | 2 | 3 | 4 | 5 => exact ifEnabled_enabled hh rfl

/-- Settles O3: `D_HANDLE` is the slot's handler and the move of the phase; no handler touches the
scheduler's part. -/
theorem handleRunsTheSlotsHandler : Obligations.HandleRunsTheSlotsHandler := by
  intro s hh hp
  have hv := handlerBody_sched s.dslot s
  refine ⟨handlerBody s.dslot s, exec_slotRow hh s.dslot, exec_dHandle hh hp,
    congrArg SchedView.params hv, congrArg (fun v : SchedView => v.flags.toNat) hv,
    congrArg SchedView.dslot hv, congrArg (fun v : SchedView => v.dsnap.toNat) hv,
    congrArg SchedView.dph hv⟩

/-! ### One slot as a whole -/

theorem serviceSlot_of_set {s : State} {k : Fin 6} (h : hasFlag s.params s.flags (prio k) = true) :
    serviceSlot s k = (handlerBody k s).clearFlag (prio k) :=
  if_pos h

theorem serviceSlot_of_unset {s : State} {k : Fin 6}
    (h : hasFlag s.params s.flags (prio k) = false) : serviceSlot s k = s :=
  if_neg (by simp [h])

/-- Clearing a flag that is not set changes nothing (R67). -/
theorem clearBits_of_unset {c : Params} {f : Flag} {w : FlagWord c} (h : hasFlag c w f = false) :
    clearBits (flagBit c f) w = w := by
  refine BitVec.eq_of_getLsbD_eq fun i _ => ?_
  rw [clearBits_getLsbD, flagBit_getLsbD]
  by_cases e : i = (c.flagIx f).val
  · have hi : w.getLsbD i = false := by rw [e]; exact h
    rw [hi, Bool.false_and]
  · rw [decide_eq_false e, Bool.not_false, Bool.and_true]

/-- Of the scheduler's part, servicing a slot clears its flag and touches nothing else. -/
theorem serviceSlot_sched (s : State) (k : Fin 6) :
    (serviceSlot s k).sched
      = { s.sched with flags := clearBits (flagBit s.params (prio k)) s.flags } := by
  cases h : hasFlag s.params s.flags (prio k)
  · rw [serviceSlot_of_unset h]
    exact congrArg (fun w : FlagWord s.params => ({ s.sched with flags := w } : SchedView))
      (clearBits_of_unset h).symm
  · rw [serviceSlot_of_set h]
    exact congrArg (fun v : SchedView =>
      ({ v with flags := clearBits (flagBit v.params (prio k)) v.flags } : SchedView))
      (handlerBody_sched k s)

theorem serviceSlot_halted (s : State) (k : Fin 6) : (serviceSlot s k).halted = s.halted := by
  cases h : hasFlag s.params s.flags (prio k)
  · rw [serviceSlot_of_unset h]
  · obtain ⟨_, _, _, _, _, _, _, _, e⟩ := handlerBody_eq k s
    rw [serviceSlot_of_set h, e]
    rfl

theorem serviceSlot_hasFlag {s : State} (hw : s.params.wf = true) (k : Fin 6) (g : Flag) :
    hasFlag (serviceSlot s k).params (serviceSlot s k).flags g
      = (hasFlag s.params s.flags g && !decide (g = prio k)) :=
  (hasFlag_of_view (serviceSlot_sched s k) g).trans (hasFlag_clearBits hw (prio k) g s.flags)

/-- Which slot the drain stands at does not matter to the service of a slot (R144). -/
theorem serviceSlot_drain (s : State) (d : Fin 6) (k : Fin 6) :
    serviceSlot { s with dslot := d } k = { serviceSlot s k with dslot := d } := by
  cases h : hasFlag s.params s.flags (prio k)
  · rw [serviceSlot_of_unset h, serviceSlot_of_unset (s := { s with dslot := d }) h]
  · obtain ⟨_, _, _, _, _, _, _, _, e, e'⟩ := handlerBody_drain k s d s.dph s.dsnap
    rw [serviceSlot_of_set h, serviceSlot_of_set (s := { s with dslot := d }) h, e, e']
    rfl

/-- A core that samples: the invariant holds, it is not halted and between two slots. -/
structure Sampling (s : State) : Prop where
  inv : SchedInv s
  running : s.halted = false
  phase : s.dph = .sample

theorem Sampling.serviceSlot {s : State} (h : Sampling s) (k : Fin 6) :
    Sampling (serviceSlot s k) := by
  have e := serviceSlot_sched s k
  have hinv : SchedInv { s with flags := clearBits (flagBit s.params (prio k)) s.flags } :=
    ⟨h.inv.params_wf, reservedZero_clearBits _ h.inv.reserved, h.inv.snap_sample,
      fun hp => absurd h.phase hp, fun hp => absurd h.phase hp⟩
  exact ⟨schedInv_of_view rfl e hinv, (serviceSlot_halted s k).trans h.running,
    (congrArg SchedView.dph e).trans h.phase⟩

theorem Sampling.atSlot {s : State} (h : Sampling s) (d : Fin 6) : Sampling { s with dslot := d } :=
  ⟨⟨h.inv.params_wf, h.inv.reserved, h.inv.snap_sample, fun hp => absurd h.phase hp,
    fun hp => absurd h.phase hp⟩, h.running, h.phase⟩

theorem runEvent_sample (s : State) : runEvent .sample s = exec .dSample s :=
  runEvent_eq .sample s

theorem runEvent_handle (s : State) : runEvent .handle s = exec .dHandle s :=
  runEvent_eq .handle s

theorem runEvent_clear (s : State) : runEvent .clear s = exec .dClear s :=
  runEvent_eq .clear s

/-- Sample, handle and clear of a slot whose flag is set: its handler, its bit cleared, the next slot. -/
theorem sample_handle_clear {s : State} (h : Sampling s)
    (hset : hasFlag s.params s.flags (prio s.dslot) = true) :
    s.sample.handle.clear = { serviceSlot s s.dslot with dslot := s.dslot + 1 } := by
  have hsnap : s.dsnap = 0 := h.inv.snap_sample h.phase
  obtain ⟨_, _, _, _, _, _, _, _, hk, hk'⟩ :=
    handlerBody_drain s.dslot s s.dslot .handle (flagBit s.params (prio s.dslot))
  rw [serviceSlot_of_set hset, hk, sample_of_set hset, State.handle, hk']
  simp [State.clear, State.clearFlag, h.phase, hsnap]

/-- A slot of the drain, with no other step in it, services its flag and moves on (R142). -/
theorem runSlot_eq {s : State} (h : Sampling s) :
    runSlot s = .next { serviceSlot s s.dslot with dslot := s.dslot + 1 } := by
  rw [runSlot, runEvent_sample, exec_dSample h.running h.phase, andThen_next]
  cases hset : hasFlag s.params s.flags (prio s.dslot)
  · have hsnap : s.dsnap = 0 := h.inv.snap_sample h.phase
    rw [serviceSlot_of_unset hset, sample_of_unset hset, if_neg (by simp)]
    simp [h.phase, hsnap]
  · have hph : s.sample.dph = .handle := by rw [sample_of_set hset]
    have hrun : s.sample.halted = false := by rw [sample_of_set hset]; exact h.running
    have hrun' : s.sample.handle.halted = false := by
      obtain ⟨_, _, _, _, _, _, _, _, e⟩ := handle_eq s.sample
      rw [e]
      exact hrun
    rw [if_pos hph, runEvent_handle, exec_dHandle hrun hph, andThen_next, runEvent_clear,
      exec_dClear hrun' rfl, sample_handle_clear h hset]

/-! ### A pass -/

theorem foldl_serviceSlot_drain (l : List (Fin 6)) (s : State) (d : Fin 6) :
    l.foldl serviceSlot { s with dslot := d } = { l.foldl serviceSlot s with dslot := d } := by
  induction l generalizing s with
  | nil => rfl
  | cons k l ih =>
    rw [List.foldl_cons, List.foldl_cons, serviceSlot_drain]
    exact ih (serviceSlot s k)

theorem Sampling.foldl {s : State} (h : Sampling s) (l : List (Fin 6)) :
    Sampling (l.foldl Machine.serviceSlot s) := by
  induction l generalizing s with
  | nil => exact h
  | cons k l ih => exact ih (h.serviceSlot k)

/-- The slots serviced are those whose flags are gone afterwards; every other flag is kept. -/
theorem foldl_serviceSlot_hasFlag {s : State} (h : Sampling s) (l : List (Fin 6)) (g : Flag) :
    hasFlag (l.foldl serviceSlot s).params (l.foldl serviceSlot s).flags g
      = (hasFlag s.params s.flags g && !decide (g ∈ l.map prio)) := by
  induction l generalizing s with
  | nil => simp
  | cons k l ih =>
    rw [List.foldl_cons, ih (h.serviceSlot k), serviceSlot_hasFlag h.inv.params_wf]
    simp [Bool.and_assoc]

/-- Before slot 5 the next slot is the next number (R142). -/
theorem slot_succ_val : ∀ d : Fin 6, d.val + 1 < 6 → (d + 1).val = d.val + 1 := by decide

/-- The rest of a pass, from the slot the drain stands at to slot 5 (R142). -/
theorem runSlots_eq (n : Nat) {s : State} (h : Sampling s) (hn : s.dslot.val + (n + 1) = 6) :
    runSlots (n + 1) s
      = .next { ((List.finRange 6).drop s.dslot.val).foldl serviceSlot s with dslot := 0 } := by
  induction n generalizing s with
  | zero =>
    have hslot : s.dslot = 5 := Fin.ext (by simp; omega)
    rw [runSlots, runSlot_eq h, andThen_next, if_pos ⟨by simp [hslot], (h.serviceSlot _).phase⟩, hslot]
    rfl
  | succ n ih =>
    have hval : (s.dslot + 1).val = s.dslot.val + 1 := slot_succ_val s.dslot (by omega)
    have hne : s.dslot + 1 ≠ 0 := fun e => by simp [e] at hval
    have hcut : (List.finRange 6).drop s.dslot.val
        = s.dslot :: (List.finRange 6).drop (s.dslot.val + 1) := by
      rw [List.drop_eq_getElem_cons (by simp)]
      simp
    have hrest := ih ((h.serviceSlot s.dslot).atSlot (s.dslot + 1)) (by simp only [hval]; omega)
    rw [runSlots, runSlot_eq h, andThen_next, if_neg (fun e => hne e.1), hrest, hcut, hval,
      List.foldl_cons, foldl_serviceSlot_drain]

/-- A pass from slot 0 services the six slots in their order (R142). -/
theorem runPass_eq {s : State} (h : Sampling s) (h0 : s.dslot = 0) :
    runPass s = .next ((List.finRange 6).foldl serviceSlot s) := by
  have hdrain := foldl_serviceSlot_drain (List.finRange 6) s 0
  rw [runPass, runSlots_eq 5 h (by simp [h0]), h0, Fin.val_zero, List.drop_zero, ← hdrain, ← h0]

/-- Every flag has a slot (R142). -/
theorem exists_prio_eq (f : Flag) : ∃ k : Fin 6, prio k = f := by
  cases f
  · exact ⟨0, rfl⟩
  · exact ⟨1, rfl⟩
  · exact ⟨2, rfl⟩
  · exact ⟨3, rfl⟩
  · exact ⟨4, rfl⟩
  · exact ⟨5, rfl⟩

/-- After all six slots no flag is set (R154). -/
theorem foldl_finRange_flags {s : State} (h : Sampling s) :
    ((List.finRange 6).foldl serviceSlot s).flags = 0 := by
  refine eq_zero_of_no_flag (h.foldl _).inv.reserved fun g => ?_
  obtain ⟨k, rfl⟩ := exists_prio_eq g
  have hmem : prio k ∈ (List.finRange 6).map prio := List.mem_map_of_mem (List.mem_finRange k)
  rw [foldl_serviceSlot_hasFlag h, decide_eq_true hmem, Bool.not_true, Bool.and_false]

/-- Settles O48: the pass is the fold of `serviceSlot` over the six slots, after which no flag is left. -/
theorem passServesTheFlagsInPriorityOrder : Obligations.PassServesTheFlagsInPriorityOrder := by
  intro s hs hh h0 hp
  have h : Sampling s := ⟨hs, hh, hp⟩
  exact ⟨_, runPass_eq h h0, rfl, foldl_finRange_flags h⟩

/-! ### Coalescing -/

/-- A second CAN error leaves no trace of the first: its code is overwritten, its flag set already
(R257). -/
theorem update_canErr_canErr (x e : ErrRec) (s : State) :
    update (.canErr e) (update (.canErr x) s) = update (.canErr e) s := by
  have hset : hasFlag s.params (raiseBit s.params .error s.flags) .error = true := by
    simp [hasFlag, raiseBit_getLsbD]
  simp only [update, State.raise, raiseBit_of_hasFlag hset]

/-- Any number of CAN errors with no other step between them are the last one (R257). -/
theorem foldl_canErr {s : State} (hh : s.halted = false) (es : List ErrRec) (e : ErrRec) :
    (es ++ [e]).foldl (fun o x => andThen o (exec (.canErr x))) (.next s)
      = .next (update (.canErr e) s) := by
  induction es generalizing s with
  | nil => exact exec_canErr hh e
  | cons x es ih =>
    have hx : exec (.canErr x) s = .next (update (.canErr x) s) := exec_canErr hh x
    rw [List.cons_append, List.foldl_cons, andThen_next, hx, ih (by exact hh), update_canErr_canErr]

/-- Slots without a flag are passed over. -/
theorem foldl_serviceSlot_of_unset {s : State} (l : List (Fin 6))
    (h : ∀ k ∈ l, hasFlag s.params s.flags (prio k) = false) : l.foldl serviceSlot s = s := by
  induction l with
  | nil => rfl
  | cons k l ih =>
    rw [List.foldl_cons, serviceSlot_of_unset (h k List.mem_cons_self)]
    exact ih fun j hj => h j (List.mem_cons_of_mem k hj)

/-- A pass in which ERROR is the one flag set runs its handler and nothing else. -/
theorem foldl_finRange_of_error {s : State} (h : Sampling s)
    (hflag : ∀ f, hasFlag s.params s.flags f = decide (f = .error)) :
    (List.finRange 6).foldl serviceSlot s = (handlerBody 4 s).clearFlag .error := by
  have hcut : List.finRange 6 = [0, 1, 2, 3] ++ 4 :: [5] := rfl
  have herr : serviceSlot s 4 = (handlerBody 4 s).clearFlag .error :=
    serviceSlot_of_set (hflag .error)
  have hlast : hasFlag (serviceSlot s 4).params (serviceSlot s 4).flags (prio 5) = false := by
    rw [serviceSlot_hasFlag h.inv.params_wf, hflag]
    rfl
  rw [hcut, List.foldl_append, foldl_serviceSlot_of_unset [0, 1, 2, 3] (by simp [hflag, prio]),
    List.foldl_cons, foldl_serviceSlot_of_unset [5] (by simpa using hlast), herr]

/-- Settles O60: the errors are the last one, and the pass finds its flag alone. -/
theorem errorsCoalesceIntoOneReport : Obligations.ErrorsCoalesceIntoOneReport := by
  intro s t es e hs hh hflags h0 hp ht
  rw [foldl_canErr hh] at ht
  obtain rfl := Host.Outcome.next.inj ht
  have h : Sampling (update (.canErr e) s) :=
    ⟨exec_keeps_schedInv hs (exec_canErr hh e), hh, hp⟩
  have hflag (f : Flag) : hasFlag s.params (raiseBit s.params .error s.flags) f
      = decide (f = .error) := by
    rw [hasFlag_raiseBit hs.params_wf, hflags]
    simp [hasFlag]
  refine ⟨_, errCode e, runPass_eq h h0, exec_errMap hh e, ?_, foldl_finRange_flags h⟩
  rw [foldl_finRange_of_error h hflag, handlerBody_four]
  rfl

end Sys2Proof.Machine
end


section
/-! PROOFS. Every pending request is dispatched, and every accepted command answered, within a bounded
number of steps of `MAIN` (40_scheduler.md section 3, 42_command_channel.md section 5).

`distance` counts the steps that `MAIN` needs at most to come to the handler of a flag: three for each
slot before the flag's own, and the sample of its own. Each step of `MAIN` that is not that handler
lowers it. -/

namespace Sys2Proof.Machine

open Sys2Proof

/-! ### The distance to a handler -/

/-- The drain slot of a flag (R6, R142). -/
def slotOf : Flag → Fin 6
  | .version => 0
  | .open_ => 1
  | .close => 2
  | .transmit => 3
  | .error => 4
  | .rxrdy => 5

theorem prio_slotOf (f : Flag) : prio (slotOf f) = f := by cases f <;> rfl

/-- Steps already taken of a slot, by its phase (R142). -/
def phaseSteps : Phase → Nat
  | .sample => 0
  | .handle => 1
  | .clear => 2

/-- The number of steps of `MAIN` to the handler of `f`, at most; past it, in CLEAR, it is the
subtraction's 0 and says nothing. -/
def distance (s : State) (f : Flag) : Nat :=
  3 * (slotOf f - s.dslot).val + 1 - phaseSteps s.dph

theorem distance_le (s : State) (f : Flag) : distance s f ≤ 16 := by
  have h5 : (slotOf f - s.dslot).val ≤ 5 := Nat.le_of_lt_succ (slotOf f - s.dslot).isLt
  unfold distance
  omega

/-- The next slot is one nearer, unless the drain stands at the slot itself. -/
theorem slot_distance_succ : ∀ a b : Fin 6, a ≠ b → (a - b).val = (a - (b + 1)).val + 1 := by decide

/-- A slot of another flag is another slot. -/
theorem slotOf_ne {s : State} {f : Flag} (h : prio s.dslot ≠ f) : slotOf f ≠ s.dslot :=
  fun e => h (by rw [← e, prio_slotOf])

/-! ### One step of `MAIN` -/

/-- A request of `f` waits for its handler in an undisturbed core: no event is to come. -/
structure Waiting (s : State) (f : Flag) : Prop where
  inv : SchedInv s
  running : s.halted = false
  quiet : s.script = []
  owed : pending s f

/-- The drain stands before the handler of `f` (R144). -/
def atHandlerOf (s : State) (f : Flag) : Prop :=
  s.dph = .handle ∧ prio s.dslot = f

/-- `D_SAMPLE` brings a waiting request nearer: to its slot's handler, or to the next slot (R143). -/
theorem sample_nearer {s : State} {f : Flag} (h : Waiting s f) (hph : s.dph = .sample) :
    pending s.sample f ∧ distance s.sample f < distance s f := by
  cases hset : hasFlag s.params s.flags (prio s.dslot)
  · have hne : prio s.dslot ≠ f := fun e => by
      have hf := h.owed.1
      rw [← e, hset] at hf
      cases hf
    have hd := slot_distance_succ _ _ (slotOf_ne hne)
    rw [sample_of_unset hset]
    refine ⟨⟨h.owed.1, by simp⟩, ?_⟩
    simp only [distance, hph, phaseSteps]
    omega
  · rw [sample_of_set hset]
    refine ⟨⟨h.owed.1, by simp⟩, ?_⟩
    simp only [distance, hph, phaseSteps]
    omega

/-- `D_HANDLE` of another slot brings a waiting request nearer (R144). -/
theorem handle_nearer {s : State} {f : Flag} (h : Waiting s f) (hph : s.dph = .handle)
    (hne : prio s.dslot ≠ f) : pending s.handle f ∧ distance s.handle f < distance s f := by
  have hd := slot_distance_succ _ _ (slotOf_ne hne)
  have hslot : s.handle.dslot = s.dslot := congrArg SchedView.dslot (handle_sched s)
  have hclear : s.handle.dph = .clear := rfl
  refine ⟨(pending_handle_iff hph).mpr ⟨h.owed, hne⟩, ?_⟩
  simp only [distance, hslot, hclear, hph, phaseSteps]
  omega

/-- `D_CLEAR`, which is of another slot than a waiting request's, brings it nearer (R145). -/
theorem clear_nearer {s : State} {f : Flag} (h : Waiting s f) (hph : s.dph = .clear) :
    pending s.clear f ∧ distance s.clear f < distance s f := by
  have hne : prio s.dslot ≠ f := fun e => h.owed.2 ⟨hph, e⟩
  have hd := slot_distance_succ _ _ (slotOf_ne hne)
  have hflag := clear_hasFlag h.inv hph f
  rw [h.owed.1, decide_eq_false hne.symm] at hflag
  refine ⟨⟨hflag, by simp⟩, ?_⟩
  simp only [distance, State.clear_dslot, State.clear_dph, hph, phaseSteps]
  omega

theorem sample_halted (s : State) : s.sample.halted = s.halted := by
  obtain ⟨_, _, _, e⟩ := sample_eq s
  rw [e]

theorem handle_halted (s : State) : s.handle.halted = s.halted := by
  obtain ⟨_, _, _, _, _, _, _, _, e⟩ := handle_eq s
  rw [e]

/-- `MAIN`'s step, by its phase, in an undisturbed core that is not halted (R143 to R145). -/
theorem step_main {s : State} (hh : s.halted = false) (hs : s.script = []) :
    (s.dph = .sample → step s = .next s.sample) ∧ (s.dph = .handle → step s = .next s.handle)
      ∧ (s.dph = .clear → step s = .next s.clear) := by
  rw [step_of_script_nil hs, mainInstr]
  refine ⟨fun hph => ?_, fun hph => ?_, fun hph => ?_⟩ <;> rw [hph]
  · exact exec_dSample hh hph
  · exact exec_dHandle hh hph
  · exact exec_dClear hh hph

/-- In an undisturbed core a step leaves no event to come. -/
theorem step_quiet {s t : State} (hs : s.script = []) (h : step s = .next t) : t.script = [] := by
  rw [step_of_script_nil hs] at h
  exact (exec_env h).2.trans hs

/-- `MAIN`'s step brings a waiting request nearer to its handler. -/
theorem step_nearer {s : State} {f : Flag} (h : Waiting s f) (hno : ¬atHandlerOf s f) :
    ∃ t, step s = .next t ∧ Waiting t f ∧ distance t f < distance s f := by
  have waiting {t : State} (ht : step s = .next t) (hh : t.halted = s.halted) (hp : pending t f) :
      Waiting t f :=
    ⟨step_keeps_schedInv h.inv ht, hh.trans h.running, step_quiet h.quiet ht, hp⟩
  obtain ⟨hsample, hhandle, hclear⟩ := step_main h.running h.quiet
  cases hph : s.dph with
  | sample =>
    obtain ⟨hp, hd⟩ := sample_nearer h hph
    exact ⟨_, hsample hph, waiting (hsample hph) (sample_halted s) hp, hd⟩
  | handle =>
    obtain ⟨hp, hd⟩ := handle_nearer h hph fun e => hno ⟨hph, e⟩
    exact ⟨_, hhandle hph, waiting (hhandle hph) (handle_halted s) hp, hd⟩
  | clear =>
    obtain ⟨hp, hd⟩ := clear_nearer h hph
    exact ⟨_, hclear hph, waiting (hclear hph) rfl hp, hd⟩

/-! ### The run to the handler -/

/-- `MAIN` comes to the handler of a waiting request within its distance; a property that each step on
the way keeps holds there. -/
theorem run_to_handler {f : Flag} {P : State → Prop}
    (hP : ∀ s t, Waiting s f → ¬atHandlerOf s f → P s → step s = .next t → P t) (n : Nat) {s : State}
    (h : Waiting s f) (hd : distance s f ≤ n) (hs : P s) :
    ∃ m t, m ≤ n ∧ Sys2Proof.core.run m s = .next t ∧ Waiting t f ∧ atHandlerOf t f ∧ P t := by
  induction n generalizing s with
  | zero =>
    refine ⟨0, s, le_rfl, run_zero s, h, ?_, hs⟩
    by_contra hno
    obtain ⟨t, -, -, hless⟩ := step_nearer h hno
    omega
  | succ n ih =>
    by_cases hat : atHandlerOf s f
    · exact ⟨0, s, Nat.zero_le _, run_zero s, h, hat, hs⟩
    · obtain ⟨t, hstep, hw, hless⟩ := step_nearer h hat
      obtain ⟨m, u, hm, hrun, hu⟩ := ih hw (by omega) (hP s t h hat hs hstep)
      exact ⟨m + 1, u, Nat.succ_le_succ hm,
        (core_run_next (M := Sys2Proof.core) m hstep).trans hrun, hu⟩

/-- Settles O49: the distance is at most 16. -/
theorem everyPendingFlagIsDispatched : Obligations.EveryPendingFlagIsDispatched := by
  intro s f hs hh hq hp
  obtain ⟨m, t, hm, hrun, hw, ⟨hph, hslot⟩, -⟩ :=
    run_to_handler (P := fun _ => True) (fun _ _ _ _ _ _ => trivial) 16 ⟨hs, hh, hq, hp⟩
      (distance_le s f) trivial
  exact ⟨m, t, hm, hrun, hph, hslot, hw.owed.1⟩

/-! ### The answer -/

/-- The command channel as the acceptance left it: the protocol holds, the message is in `CMD_RX`, and
nothing has been sent since. -/
structure Unanswered (c : Params) (msg : Buf 16) (sent : List (Buf 16)) (s : State) : Prop where
  protocol : CommandInv s
  build : s.params = c
  held : s.cmdRx = msg
  silent : s.outCmd = sent

/-- On the way to the handler of a command nothing touches the command channel: another command's
handler would need that command to be owed too. -/
theorem step_keeps_unanswered {f : Flag} {code : Byte} (hf : codeOf f = some code) {c : Params}
    {msg : Buf 16} {sent : List (Buf 16)} {s t : State} (h : Waiting s f) (hno : ¬atHandlerOf s f)
    (hu : Unanswered c msg sent s) (ht : step s = .next t) : Unanswered c msg sent t := by
  have hm : agentOf (mainInstr s) = some .main := agentOf_mainInstr s
  rw [step_of_script_nil h.quiet] at ht
  obtain rfl | hi := exec_agentStep (by simp [hm]) ht
  · exact hu
  · obtain ⟨hrx, -⟩ := hi.frame_main hm
    refine ⟨hi.keeps_commandInv (fun e => ?_) h.inv hu.protocol, hi.params_eq.trans hu.build,
      hrx.trans hu.held, ?_⟩
    · rw [e] at hm
      cases hm
    · obtain e | ⟨e, -⟩ | ⟨hph, x, st, hk, -⟩ := hi.outCmd_cases
      · exact e.trans hu.silent
      · rw [e] at hm
        cases hm
      · exact absurd ⟨hph, pending_unique hu.protocol hk hf (pending_of_handle h.inv hph) h.owed⟩ hno

/-- The handler of a command, once the drain stands before it, answers the message held. -/
theorem step_answers {f : Flag} {code : Byte} (hf : codeOf f = some code) {c : Params}
    {msg : Buf 16} {sent : List (Buf 16)} {s : State} (h : Waiting s f) (hat : atHandlerOf s f)
    (hu : Unanswered c msg sent s) :
    ∃ t st, step s = .next t ∧ (st = 0x00#8 ∨ st = 0xFF#8) ∧ t.outCmd = sent ++ [answer s st]
      ∧ t.cmdArmed = true := by
  obtain ⟨hph, hslot⟩ := hat
  obtain ⟨-, hhandle, -⟩ := step_main h.running h.quiet
  obtain ⟨st, hst, -, hcmd, harm, -⟩ := handlerBody_command (hslot ▸ hf) s
  exact ⟨_, st, hhandle hph, hst, by rw [← hu.silent]; exact hcmd, harm⟩

/-- Settles O50: the accepted command waits, `MAIN` comes to its handler within 16 steps with the
channel untouched, and the handler's step answers. -/
theorem acceptedCommandIsAnswered : Obligations.AcceptedCommandIsAnswered := by
  intro s t f code a hs hc hh ha hq hf hgap hx
  obtain ⟨p, d, hrange, hacc⟩ := exec_cmdRow_accept hh ha hf a
  obtain rfl := Host.Outcome.next.inj (hx.symm.trans hacc)
  have hstep : AgentStep (cmdRow code a) s (s.accept f (cmdMsg s.params code a) p d) :=
    .accept p (agentOf_cmdRow code a) ha hf rfl hrange
  have hset : hasFlag s.params (raiseBit s.params f s.flags) f = true := by
    simp [hasFlag_raiseBit hs.params_wf]
  have hw : Waiting (s.accept f (cmdMsg s.params code a) p d) f :=
    ⟨exec_keeps_schedInv hs hx, hh, hq, hset, hgap⟩
  have hinit : cmdRow code a ≠ .usbInit := fun e => by
    have henc := encode_cmdRow s.params code a
    rw [e] at henc
    cases henc
  have hu : Unanswered s.params (cmdMsg s.params code a) s.outCmd
      (s.accept f (cmdMsg s.params code a) p d) :=
    ⟨hstep.keeps_commandInv hinit hs hc, rfl, rfl, rfl⟩
  obtain ⟨m, u, hm, hrun, hwu, hat, huu⟩ :=
    run_to_handler (fun _ _ => step_keeps_unanswered hf) 16 hw (distance_le _ f) hu
  obtain ⟨v, st, hv, hst, hout, harm⟩ := step_answers hf hwu hat huu
  refine ⟨m + 1, v, answer u st, by omega, ?_, hout, harm, ?_⟩
  · exact (run_add hrun 1).trans (core_run_next (M := Sys2Proof.core) 0 hv)
  · simp only [answer, huu.held, huu.build]
    exact ⟨rfl, rfl, rfl, rfl, rfl, hst⟩

end Sys2Proof.Machine
end


section
/-! PROOFS. Buffer access (20_memory.md section 6), the port formula (section 4) and the laws of the
bit-timing translator (41_bit_timing.md section 3). -/

namespace Sys2Proof.Machine

open Sys2Proof

/-! ### Big-endian writes -/

/-- Every byte after a write: digit `n-1-j` of the value at `off+j`, the others kept (R77). -/
theorem byteAt_memWrite {m : Nat} (B : Buf m) (off n v k : Nat) (hn : off + n ≤ m) :
    byteAt (memWrite B off n v) k
      = if off ≤ k ∧ k < off + n then BitVec.ofNat 8 (v / 256 ^ (off + n - 1 - k))
        else byteAt B k := by
  induction n generalizing v with
  | zero =>
    rw [memWrite_zero, if_neg (by omega)]
  | succ n ih =>
    rw [memWrite_succ, byteAt_setIfInBounds, ih _ (by omega)]
    by_cases hlast : off + n = k
    · have hexp : off + (n + 1) - 1 - k = 0 := by omega
      rw [if_pos ⟨hlast, by omega⟩, if_pos (by omega), hexp, pow_zero, Nat.div_one]
    · rw [if_neg (by omega)]
      by_cases hin : off ≤ k ∧ k < off + n
      · have hexp : off + (n + 1) - 1 - k = (off + n - 1 - k) + 1 := by omega
        rw [if_pos hin, if_pos (by omega), hexp, Nat.div_div_eq_div_mul, pow_succ, Nat.mul_comm]
      · rw [if_neg hin, if_neg (by omega)]

/-- A read depends on the bytes it reads (R77). -/
theorem memRead_congr {m : Nat} {A B : Buf m} {off n : Nat}
    (h : ∀ j < n, byteAt A (off + j) = byteAt B (off + j)) : memRead A off n = memRead B off n := by
  induction n with
  | zero => rfl
  | succ n ih =>
    rw [memRead_succ, memRead_succ, ih fun j hj => h j (by omega), h n (by omega)]

/-- Reading back what was written, digit by digit. -/
theorem memRead_memWrite {m : Nat} (B : Buf m) (off n v : Nat) (hn : off + n ≤ m)
    (hv : v < 256 ^ n) : memRead (memWrite B off n v) off n = v := by
  induction n generalizing v with
  | zero =>
    rw [memRead_zero]
    omega
  | succ n ih =>
    have hdiv : v / 256 < 256 ^ n := Nat.div_lt_of_lt_mul (by rwa [pow_succ, Nat.mul_comm] at hv)
    have hprefix : memRead (memWrite B off (n + 1) v) off n
        = memRead (memWrite B off n (v / 256)) off n :=
      memRead_congr fun j hj => by rw [memWrite_succ, byteAt_setIfInBounds, if_neg (by omega)]
    have hlast : byteAt (memWrite B off (n + 1) v) (off + n) = BitVec.ofNat 8 v := by
      rw [memWrite_succ, byteAt_setIfInBounds, if_pos ⟨rfl, by omega⟩]
    rw [memRead_succ, hprefix, ih _ (by omega) hdiv, hlast, BitVec.toNat_ofNat]
    omega

/-- Settles O59: the read back by induction on the digits, the rest by the bytes of a write. -/
theorem memReadAfterMemWrite : Obligations.MemReadAfterMemWrite := by
  intro m B off n v hn hv
  refine ⟨memRead_memWrite B off n v hn hv, fun k hk => ?_, fun k hk => ?_⟩
  · rw [byteAt_memWrite B off n v k hn, if_neg (by omega)]
  · have hexp : off + n - 1 - (off + k) = n - 1 - k := by omega
    rw [byteAt_memWrite B off n v _ hn, if_pos (by omega), hexp, BitVec.toNat_ofNat]

/-! ### The port formula -/

/-- Raising flags one by one ors their bits in, starting from any word (R65). -/
theorem foldl_or_flagBit (c : Params) (fs : List Flag) (w : FlagWord c) :
    fs.foldl (fun v f => v ||| flagBit c f) w = w ||| fs.foldl (fun v f => v ||| flagBit c f) 0 := by
  induction fs generalizing w with
  | nil => exact BitVec.or_zero.symm
  | cons f fs ih =>
    have hzero : 0 ||| flagBit c f = flagBit c f := BitVec.zero_or
    rw [List.foldl_cons, List.foldl_cons, ih (w ||| flagBit c f), hzero, ih (flagBit c f),
      BitVec.or_assoc]

/-- The order in which flags are raised does not matter (R65). -/
theorem foldl_or_flagBit_perm (c : Params) {fs gs : List Flag} (h : fs.Perm gs) (w : FlagWord c) :
    fs.foldl (fun v f => v ||| flagBit c f) w = gs.foldl (fun v f => v ||| flagBit c f) w :=
  h.foldl_eq'
    (fun f _ g _ v => by rw [BitVec.or_assoc, BitVec.or_assoc, BitVec.or_comm (flagBit c f)]) w

/-- Settles O58: `RAISE` ors a bit in, and oring is independent of start and order. -/
theorem portFormulaIsClearThenRaise : Obligations.PortFormulaIsClearThenRaise := by
  intro c w mask fs gs hperm
  show clearBits mask w ||| _ = gs.foldl (fun v f => v ||| flagBit c f) (clearBits mask w)
  rw [← foldl_or_flagBit, foldl_or_flagBit_perm c hperm]

/-! ### The laws of the translator -/

/-- A field shifted into its word and not out of it is shifted back by division (R177). -/
theorem toNat_shiftLeft_div {n k : Nat} (x : BitVec n) (h : k + n ≤ 32) :
    (x.setWidth 32 <<< k).toNat / 2 ^ k = x.toNat := by
  have hfit : x.toNat * 2 ^ k < 2 ^ 32 := by
    calc x.toNat * 2 ^ k < 2 ^ n * 2 ^ k := Nat.mul_lt_mul_of_pos_right x.isLt (Nat.two_pow_pos k)
      _ = 2 ^ (k + n) := by rw [← pow_add, Nat.add_comm]
      _ ≤ 2 ^ 32 := Nat.pow_le_pow_right (by decide) h
  have hx : x.toNat < 2 ^ 32 :=
    x.isLt.trans_le (Nat.pow_le_pow_right (by decide) (by omega))
  rw [BitVec.toNat_shiftLeft, BitVec.toNat_setWidth, Nat.mod_eq_of_lt hx, Nat.shiftLeft_eq,
    Nat.mod_eq_of_lt hfit, Nat.mul_div_cancel _ (Nat.two_pow_pos k)]

/-- The shifts of well-formed parameters keep the fields inside their words (R177). -/
theorem shifts_of_wf {c : Params} (h : c.wf = true) :
    c.sjwShift + 2 ≤ 32 ∧ c.ts1Shift + 4 ≤ 32 ∧ c.ts2Shift + 3 ≤ 32 := by
  simp only [Params.wf, Bool.and_eq_true, decide_eq_true_eq] at h
  tauto

/-- A wire byte in the range of its field is the stored field plus one (R171). -/
theorem pred_mod_succ {w n : Nat} (h1 : 1 ≤ w) (hn : w ≤ n) (hn' : n ≤ 256) :
    (w + 255) % 256 % n + 1 = w := by
  have hw : (w + 255) % 256 = w - 1 := by omega
  rw [hw, Nat.mod_eq_of_lt (by omega)]
  omega

/-- Settles O7: the fields are shifted inside their words, `brp_wire * 3 / 2` is inverted by the rounding
up, and a byte in its field's range has its predecessor stored whole. -/
theorem translatorRoundTrip : Obligations.TranslatorRoundTrip := by
  intro s p hw hh
  obtain ⟨hsjw, hts1, hts2⟩ := shifts_of_wf hw
  refine ⟨s.btDecode p, regFields (s.btDecode p), exec_btDecode hh p, exec_btCompute hh,
    toNat_shiftLeft_div _ hsjw, toNat_shiftLeft_div _ hts1, toNat_shiftLeft_div _ hts2, ?_,
    fun h1 hn => ?_, fun h1 hn => ?_, fun h1 hn => ?_⟩
  · have hpresc : (regFields (s.btDecode p)).presc.toNat = (brpOf p).toNat := by
      have hlt := (brpOf p).isLt
      show ((brpOf p).setWidth 32).toNat = _
      rw [BitVec.toNat_setWidth, Nat.mod_eq_of_lt (by omega)]
    rw [hpresc, brpOf_toNat]
    omega
  · exact (congrArg (· + 1) (ts1Of_toNat p[0])).trans (pred_mod_succ h1 hn (by decide))
  · exact (congrArg (· + 1) (ts2Of_toNat p[1])).trans (pred_mod_succ h1 hn (by decide))
  · exact (congrArg (· + 1) (sjwOf_toNat p[2])).trans (pred_mod_succ h1 hn (by decide))

end Sys2Proof.Machine
end


section
/-! PROOFS. The remaining rows, one by one: deliveries and their framing errors, the data channel, the
calls, the two events of the environment; what is refused, and what a step that is not enabled does. -/

namespace Sys2Proof.Machine

open Sys2Proof

/-! ### Command deliveries -/

/-- An enabled instruction, the reception of a frame apart, makes its update. -/
theorem exec_of_enabled {i : Instr} {s : State} (hf : ∀ f, i ≠ .canRxDone f)
    (he : enabled i s = true) : exec i s = .next (update i s) := by
  rw [exec_eq i s fun f hi => absurd hi (hf f), if_pos he]

/-- Settles O11: each of the ten rows is enabled, and its update is the one named. -/
theorem unusedCommandsAreUnrecognized : Obligations.UnusedCommandsAreUnrecognized := by
  intro s a i code hh ha hmem
  have he : (!s.halted && s.cmdArmed) = true := by simp [hh, ha]
  simp only [List.mem_cons, List.not_mem_nil, or_false, Prod.mk.injEq] at hmem
  rcases hmem with ⟨rfl, rfl⟩ | ⟨rfl, rfl⟩ | ⟨rfl, rfl⟩ | ⟨rfl, rfl⟩ | ⟨rfl, rfl⟩ | ⟨rfl, rfl⟩
    | ⟨rfl, rfl⟩ | ⟨rfl, rfl⟩ | ⟨rfl, rfl⟩ | ⟨rfl, -⟩ <;>
    exact exec_of_enabled (by simp) he

/-- A command delivery on an armed channel disarms it and parses the packet (R190). -/
theorem exec_usbCmdOut_enabled {s : State} (hh : s.halted = false) (ha : s.cmdArmed = true)
    (pkt : Packet) :
    exec (.usbCmdOut pkt) s = .next (State.parseCommand { s with cmdArmed := false } pkt) :=
  ifEnabled_enabled hh ha

/-- The delivery of a framed message is the dispatch on its code (R191, R194). -/
theorem exec_usbCmdOut_framed {s : State} (hh : s.halted = false) (ha : s.cmdArmed = true)
    {b : Buf 16} (h0 : b[0] = s.params.cmdSof) (h15 : b[15] = s.params.cmdEof) :
    exec (.usbCmdOut b.toList) s
      = .next (State.dispatch { s with cmdArmed := false, cmdRx := b } b) := by
  rw [exec_usbCmdOut_enabled hh ha, parseCommand_framed (s := { s with cmdArmed := false })
    (cmdFrame?_eq_some.mpr ⟨rfl, h0, h15⟩)]

/-- A request row, whichever its code, is the dispatch on its message (R190, R194). -/
theorem exec_cmdRow_dispatch {s : State} (hh : s.halted = false) (ha : s.cmdArmed = true)
    (code : Byte) (a : CmdArgs) :
    exec (cmdRow code a) s = .next (State.dispatch
      { s with cmdArmed := false, cmdRx := cmdMsg s.params code a } (cmdMsg s.params code a)) := by
  rw [exec_cmdRow, State.takeCommand, ifEnabled_enabled hh ha, dispatch_cmdMsg]

/-- A dispatch keeps the message and the arm latch (R194). -/
theorem dispatch_channel (s : State) (b : Buf 16) :
    (s.dispatch b).cmdRx = s.cmdRx ∧ (s.dispatch b).cmdArmed = s.cmdArmed := by
  unfold State.dispatch
  split_ifs
  · simp [acceptVersion_eq]
  · simp [acceptOpen_eq]
  · simp [acceptClose_eq]
  · exact ⟨rfl, rfl⟩

/-- Settles O12: the delivery and the row of its code are one dispatch, because the message is the one
built from its own fields. -/
theorem commandsAreDispatchedOnTheirCode : Obligations.CommandsAreDispatchedOnTheirCode := by
  intro s b hh ha h0 h15
  have hmsg : cmdMsg s.params b[2] (cmdArgsOf b) = b := cmdMsg_cmdArgsOf h0 h15
  have hrow := exec_cmdRow_dispatch hh ha b[2] (cmdArgsOf b)
  rw [hmsg] at hrow
  obtain ⟨hrx, harm⟩ := dispatch_channel { s with cmdArmed := false, cmdRx := b } b
  refine ⟨_, cmdArgsOf b, exec_usbCmdOut_framed hh ha h0 h15, hrx, harm, hmsg, fun h => ?_, fun h => ?_,
    fun h => ?_, fun h12 h2 h3 => ?_⟩
  · rw [← hrow, h]; rfl
  · rw [← hrow, h]; rfl
  · rw [← hrow, h]; rfl
  · rw [State.dispatch, if_neg h12, if_neg h2, if_neg h3]
    rfl

/-- A packet with a wrong length or a wrong marker is no framed message (R191). -/
theorem cmdFrame?_eq_none {c : Params} {pkt : Packet}
    (h : pkt.length ≠ 16 ∨ pkt[0]? ≠ some c.cmdSof ∨ pkt[15]? ≠ some c.cmdEof) :
    cmdFrame? c pkt = none := by
  refine Option.eq_none_iff_forall_ne_some.mpr fun b hb => ?_
  obtain ⟨rfl, h0, h15⟩ := cmdFrame?_eq_some.mp hb
  simp [h0, h15] at h

theorem dinFrame?_eq_none {c : Params} {pkt : Packet}
    (h : pkt.length ≠ 16 ∨ pkt[0]? ≠ some c.dataSof ∨ pkt[15]? ≠ some c.dataEof) :
    dinFrame? c pkt = none := by
  refine Option.eq_none_iff_forall_ne_some.mpr fun b hb => ?_
  obtain ⟨rfl, h0, h15⟩ := dinFrame?_eq_some.mp hb
  simp [h0, h15] at h

/-- Settles O13: the packet is not framed, and the condition draws a free value for `CMD_RX`. -/
theorem commandFramingError : Obligations.CommandFramingError := by
  intro s pkt hh ha hbad
  refine ⟨Config.unspec16 s.draws, ?_⟩
  rw [exec_usbCmdOut_enabled hh ha,
    parseCommand_bad (s := { s with cmdArmed := false }) (cmdFrame?_eq_none hbad)]
  rfl

/-! ### Data deliveries -/

/-- The frame of an inbound data message, written out (R222). -/
theorem frameOf_eq (c : Params) (fl : Byte) (idw : Word32) (dlc : Byte) (data : Buf 8) :
    frameOf c fl idw dlc data =
      { id := BitVec.ofNat 29
          (if fl &&& c.fbExt = 0#8 then idw.toNat % 2 ^ 11 else idw.toNat % 2 ^ 29)
        ext := decide (fl &&& c.fbExt ≠ 0#8)
        rtr := decide (fl &&& c.fbRtr ≠ 0#8)
        dlc := BitVec.ofNat 4 (if dlc.toNat ≤ 8 then dlc.toNat else 8)
        data := Vector.ofFn fun i : Fin 8 => if i.val < dlc.toNat then data[i.val] else 0#8 } := by
  have hid : idOf (testMask fl c.fbExt) idw = BitVec.ofNat 29
      (if fl &&& c.fbExt = 0#8 then idw.toNat % 2 ^ 11 else idw.toNat % 2 ^ 29) := by
    calc idOf (testMask fl c.fbExt) idw
        = BitVec.ofNat 29 (idOf (testMask fl c.fbExt) idw).toNat := by
          rw [BitVec.ofNat_toNat, BitVec.setWidth_eq]
      _ = _ := by
          rw [idOf_toNat, testMask_eq_decide]
          simp [ite_not]
  have hdata : trim (clampDlc dlc) data
      = Vector.ofFn fun i : Fin 8 => if i.val < dlc.toNat then data[i.val] else 0#8 := by
    refine buf_ext fun i hi => ?_
    have hlt : i < clampDlc dlc ↔ i < dlc.toNat := by
      unfold clampDlc
      omega
    simp [trim_getElem _ _ i hi, hlt]
  rw [frameOf, hid, hdata, testMask_eq_decide, testMask_eq_decide, clampDlc, Nat.min_def]

/-- Settles O18: the row's update, with the message and the frame written out. -/
theorem dataMessageFillsTheSlot : Obligations.DataMessageFillsTheSlot := by
  intro s fl idw dlc data hh ha
  have hx : exec (.dataIn fl idw dlc data) s = .next (update (.dataIn fl idw dlc data) s) :=
    ifEnabled_enabled hh ha
  rw [hx, update, State.acceptFrame, frameOf_eq, dinMsg_eq]
  rfl

/-- Settles O19: a framed packet is the message built from its own fields; any other draws a free value
for `DATA_RX`. -/
theorem dataDeliveryParsesOrFails : Obligations.DataDeliveryParsesOrFails := by
  refine ⟨fun s b hh ha h0 h15 => ?_, fun s pkt hh ha hbad => ?_⟩
  · have hrow : exec (.dataIn b[1] (BitVec.ofNat 32 (memRead b 2 4)) b[6] (slice b 7 8)) s
        = .next (update (.dataIn b[1] (BitVec.ofNat 32 (memRead b 2 4)) b[6] (slice b 7 8)) s) :=
      ifEnabled_enabled hh ha
    rw [update, dinMsg_of_framed h0 h15] at hrow
    refine ⟨_, _, _, ?_, hrow, rfl, rfl, ?_, ?_⟩
    · rw [exec_usbDataOut_enabled hh ha, parseFrame_framed (s := { s with dataArmed := false })
        (dinFrame?_eq_some.mpr ⟨rfl, h0, h15⟩)]
    · have hlt : memRead b 2 4 < 2 ^ 32 := memRead_lt b 2 4
      rw [BitVec.toNat_ofNat, Nat.mod_eq_of_lt hlt]
      simp (disch := omega) only [memRead_succ, memRead_zero, byteAt_of_lt, Nat.reduceAdd]
      omega
    · refine buf_ext fun i hi => ?_
      rw [slice_getElem _ _ _ _ hi, byteAt_of_lt _ (by omega)]
      interval_cases i <;> rfl
  · refine ⟨Config.unspec16 s.draws, ?_⟩
    rw [exec_usbDataOut_enabled hh ha,
      parseFrame_bad (s := { s with dataArmed := false }) (dinFrame?_eq_none hbad)]
    rfl

/-! ### Messages and calls -/

/-- Settles O20: in a core that is not halted the row makes its update, `callTxStart` of the slot. -/
theorem transmitHandlerStartsTheSlot : Obligations.TransmitHandlerStartsTheSlot :=
  fun _ hh => ifEnabled_enabled hh rfl

/-- Settles O21: the two handlers are those of slots 5 and 4, whose messages are `canMsg` and
`errMsg`. -/
theorem emittersBuildTheirMessage : Obligations.EmittersBuildTheirMessage := by
  intro s hh
  have hrx : exec .hRxrdy s = .next (handlerBody 5 s) := ifEnabled_enabled hh rfl
  have herr : exec .hError s = .next (handlerBody 4 s) := ifEnabled_enabled hh rfl
  rw [handlerBody_five] at hrx
  rw [handlerBody_four] at herr
  exact ⟨hrx, herr⟩

/-- Settles O22: the writes into `DATA_TX` give the 21 bytes, whatever it held. -/
theorem messagesCrossTheirPorts : Obligations.MessagesCrossTheirPorts := by
  intro s hh
  have he : (!s.halted) = true := by simp [hh]
  exact ⟨fun command a => exec_of_enabled (i := .cmdResponse command a) (by simp) he,
    fun fl idw dlc data ts => exec_of_enabled (i := .dataOutCan fl idw dlc data ts) (by simp) he,
    fun code ts => exec_of_enabled (i := .dataOutErr code ts) (by simp) he⟩

/-- Settles O28: neither callback waits for a latch. -/
theorem initArmsAndDeinitDisarms : Obligations.InitArmsAndDeinitDisarms :=
  fun _ hh => ⟨ifEnabled_enabled hh rfl, ifEnabled_enabled hh rfl⟩

/-- Settles O29: the two calls' updates, with the status of a close written out. -/
theorem callsAreRecorded : Obligations.CallsAreRecorded := by
  intro s hh
  have he : (!s.halted) = true := by simp [hh]
  exact ⟨fun a => exec_of_enabled (i := .canOpen a) (by simp) he,
    exec_of_enabled (i := .canClose) (by simp) he⟩

/-- Settles O30: in a core that is not halted the row makes its update, `callTxStart`. -/
theorem transmitStartIsRecorded : Obligations.TransmitStartIsRecorded :=
  fun _ _ hh => ifEnabled_enabled hh rfl

/-! ### The environment's two events -/

/-- Settles O31: the exception is the condition of class (d), which waits for nothing. -/
theorem processorExceptionHalts : Obligations.ProcessorExceptionHalts :=
  fun _ => rfl

/-- Settles O32: reset is enabled in every state, and its update names every field. -/
theorem resetEventRestoresEverything : Obligations.ResetEventRestoresEverything :=
  fun _ => rfl

/-! ### Refusals, disabled steps, decoding -/

/-- Settles O27: such a frame is outside the interface, and the decoder checks both limits. -/
theorem outsideTheInterfaceIsRefused : Obligations.OutsideTheInterfaceIsRefused := by
  have outside {f : Frame} (h : 8 < f.dlc.toNat ∨ (f.ext = false ∧ 2 ^ 11 ≤ f.id.toNat)) :
      ¬f.inInterface = true := fun hf => by
    obtain ⟨hdlc, hid⟩ := inInterface_iff.mp hf
    obtain h | ⟨hext, h⟩ := h
    · omega
    · exact absurd (hid hext) (Nat.not_lt.mpr h)
  refine ⟨fun s f hext hid => exec_canRxDone_outside (outside (.inr ⟨hext, hid⟩)) s,
    fun c f h => if_neg (outside h), fun c pkt h => ?_⟩
  exact ⟨if_neg (Nat.not_le.mpr h), if_neg (Nat.not_le.mpr h)⟩

/-- An instruction that is not enabled, reception outside the interface apart, changes nothing. -/
theorem exec_of_disabled {i : Instr} {s : State}
    (hf : ∀ f, i = .canRxDone f → f.inInterface = true) (he : enabled i s = false) :
    exec i s = .next s := by
  rw [exec_eq i s hf, if_neg (by simp [he])]

/-- In a halted core only the environment's two events are enabled (R36). -/
theorem enabled_of_halted {i : Instr} {s : State} (hh : s.halted = true)
    (hexc : i ≠ .procException) (hreset : i ≠ .resetEvent) : enabled i s = false := by
  cases i
  case procException => exact absurd rfl hexc
  case resetEvent => exact absurd rfl hreset
  all_goals simp [enabled, hh]

/-- Every request row waits for the command channel to be armed (R190). -/
theorem exec_cmdRow_disarmed {s : State} (ha : s.cmdArmed = false) (code : Byte) (a : CmdArgs) :
    exec (cmdRow code a) s = .next s := by
  rw [exec_cmdRow, State.takeCommand, ifEnabled_disabled (.inr ha)]

/-- Settles O33: each of these steps has its enabling condition false. -/
theorem disabledStepsChangeNothing : Obligations.DisabledStepsChangeNothing := by
  refine ⟨fun s i hh hexc hreset hf => exec_of_disabled hf (enabled_of_halted hh hexc hreset),
    fun s a code pkt ha => ⟨exec_cmdRow_disarmed ha code a, ifEnabled_disabled (.inr ha),
      ifEnabled_disabled (.inr ha)⟩,
    fun s fl idw dlc data pkt ha => ⟨ifEnabled_disabled (.inr ha), ifEnabled_disabled (.inr ha)⟩,
    fun s => ⟨fun hp => ?_, fun hp => ?_, fun hp => ?_⟩⟩ <;>
  exact ifEnabled_disabled (.inr (decide_eq_false hp))

/-- Settles O34, by the three cases of `fetch`. -/
theorem stepRunsTheDecodedInstruction : Obligations.StepRunsTheDecodedInstruction :=
  ⟨fun _ _ _ _ hs hd _ => step_of_decode_ok hs hd, fun _ _ _ _ hs hd => step_of_decode_error hs hd,
    fun _ hs => step_of_script_nil hs⟩

/-- Settles O35, by running the decoder on the four packets. -/
theorem writtenWordsDecode : Obligations.WrittenWordsDecode := by
  unfold Obligations.WrittenWordsDecode
  decide

end Sys2Proof.Machine
end
